-- ==== Sys2Proof/Word.lean ====
section
/-! DEFINITION. The two widths of the machine (00_scope.md R4): a byte is 8 bits, a word is 16 bits. -/

namespace Sys2Proof

/-- A byte: the width XLEN of A, X, Y, P, SP and of a memory cell (R3, R4). -/
abbrev Byte := BitVec 8

/-- A word: the width PCLEN of PC and of every address (R3, R4). -/
abbrev Word := BitVec 16

end Sys2Proof
end

