-- ==== Sys2Proof/Config.lean ====
section
/-! DEFINITION. The parameters of the core (00_scope.md R3, 92_eei_decisions.md) and the two things the
spec leaves open: the address of the random-number tap and the bytes it answers. -/

namespace Sys2Proof

/-- STACK_BASE, the address of offset 0 of the stack page (R3, decision D1). -/
def Config.stackBase : Word := 0x0100

/-- STACK_TOP, the reset and "empty" value of SP (R3, decision D2). -/
def Config.stackTop : Byte := 0xFF

/-- DEFAULT_START, the reset value of PC (R3, decision D3). -/
def Config.defaultStart : Word := 0x0200

/-- BRK_VECTOR, the address of the word BRK loads into PC (R3, decision D16). -/
def Config.brkVector : Word := 0xFFFE

/-- DISPLAY_BASE: the display window is DISPLAY_BASE..DISPLAY_TOP (R3; 20_memory.md R45). -/
def Config.displayBase : Word := 0xFC00

/-- DISPLAY_TOP, the last address of the display window (R3). -/
def Config.displayTop : Word := 0xFFFF

/-- BATCH_SIZE, the number of execute-one steps of a batch (R3; 40_execution_and_addressing.md R102). -/
def Config.batchSize : Nat := 255

/-- The two carry formulas a compare may use (R3; decision D8, conflict C1). -/
inductive CmpCarry where
  /-- C is 1 exactly when register >= operand. -/
  | borrow
  /-- C is 1 exactly when register + operand > 0xFF (the losing formula of conflict C1). -/
  | addition
  deriving DecidableEq, Repr

/-- CMP_CARRY: the formula this machine uses is `borrow` (decision D8). -/
def Config.cmpCarry : CmpCarry := .borrow

/-- The 105 opcode bytes whose slot holds the invalid entry, row by row of 30_encoding.md R78. -/
def Config.unpopulated : List Byte :=
  [0x02, 0x03, 0x04, 0x07, 0x0B, 0x0C, 0x0F]
   ++ [0x12, 0x13, 0x14, 0x17, 0x1A, 0x1B, 0x1C, 0x1F]
   ++ [0x22, 0x23, 0x27, 0x2B, 0x2F]
   ++ [0x32, 0x33, 0x34, 0x37, 0x3A, 0x3B, 0x3C, 0x3F]
   ++ [0x42, 0x43, 0x44, 0x47, 0x4B, 0x4F]
   ++ [0x52, 0x53, 0x54, 0x57, 0x5A, 0x5B, 0x5C, 0x5F]
   ++ [0x62, 0x63, 0x64, 0x67, 0x6B, 0x6F]
   ++ [0x72, 0x73, 0x74, 0x77, 0x7A, 0x7B, 0x7C, 0x7F]
   ++ [0x80, 0x82, 0x83, 0x87, 0x89, 0x8B, 0x8F]
   ++ [0x92, 0x93, 0x97, 0x9B, 0x9C, 0x9E, 0x9F]
   ++ [0xA3, 0xA7, 0xAB, 0xAF]
   ++ [0xB2, 0xB3, 0xB7, 0xBB, 0xBF]
   ++ [0xC2, 0xC3, 0xC7, 0xCB, 0xCF]
   ++ [0xD2, 0xD3, 0xD4, 0xD7, 0xDA, 0xDB, 0xDC, 0xDF]
   ++ [0xE2, 0xE3, 0xE7, 0xEB, 0xEF]
   ++ [0xF2, 0xF3, 0xF4, 0xF7, 0xFA, 0xFB, 0xFC, 0xFF]

/-- POPULATED, the set of opcode bytes that hold a real instruction; the decided value is all 151
documented opcodes, the complement of R78's list (30_encoding.md R79, decision D7). -/
def Config.populated (op : Byte) : Bool := !Config.unpopulated.contains op

/-- RNG_ADDR, the OPEN parameter: the tap is the zero-page address 0x00:rngAddr (20_memory.md R43,
decision D4). It has no body: a claim about `State.reset` holds for every value. DESIGN CHOICE, log
entry 2. -/
opaque Config.rngAddr : Byte

/-- The bytes the random-number tap answers: the n-th read of it draws `Config.draw n`, a FREE VALUE
(20_memory.md R42, decision D5). It has no body, so nothing can be proved of a draw. DESIGN CHOICE, log
entry 1. -/
opaque Config.draw : Nat → Byte

end Sys2Proof
end

