-- ==== Sys2Proof/Machine/State.lean ====
section
/-! DEFINITION. The state of the machine (10_state.md): registers, memory, run state, the two output
traces, the instruction counter and the model's two fields for what the spec leaves open. -/

namespace Sys2Proof.Machine

/-- The three faults of the core (60_exceptions.md R240). The spec describes what each does (Halt, R244),
so a meaning TAKES it and answers the next, halted state: no meaning and no step of this model answers
`Outcome.fault`. The fault kind stays in the field `lastFault`. -/
inductive Fault where
  /-- Raised by the decoder's invalid entry (`Sys2Proof.Machine.execInvalid`) with the slot's own opcode
  byte (R241). Safe: it is the spec's own effect. -/
  | invalidOpcode (op : Byte)
  /-- Raised by `push` when SP = 0: PHA, PHP, JSR, BRK (R242). Safe: it is the spec's own effect. -/
  | stackOverflow
  /-- Raised by `pop` when SP >= STACK_TOP: PLA, PLP, RTS, RTI (R243). Safe: it is the spec's own effect. -/
  | stackUnderflow
  deriving DecidableEq, Repr

/-- Why the model gives something no meaning. -/
inductive Refusal where
  /-- An instruction without a meaning. Raised by no arm of `exec`: every instruction has its meaning.
  Safe: the model stops where the hardware goes on. -/
  | notModelled (mnemonic : String)
  /-- Raised by the host command Load while the core is Running, to which the spec gives no meaning
  (93_implementation_defined.md U13: refuse). Safe: the model stops. -/
  | loadWhileRunning
  deriving DecidableEq, Repr

/-- The kinds of log line the core itself produces (60_exceptions.md R250); their texts are not in the
spec (91_not_in_source.md N11). -/
inductive LogLine where
  /-- One line at Reset (70_reset_and_hazards.md R270). -/
  | reset
  /-- One line at Halt, naming the fault (60_exceptions.md R244). -/
  | halt (f : Fault)
  /-- A Run while already Running: a no-op notice (R278). -/
  | runRedundant
  /-- A Run while Halted: a rejection notice (R278). -/
  | runRejected
  deriving DecidableEq, Repr

/-- One call of the display sink: the 16-bit address and the byte as stored (20_memory.md R45). -/
abbrev SinkCall := Word × Byte

/-- The state of the machine. The first eleven fields and the two traces are the spec's; the last two are
the model's own, for the OPEN parameter and the free values. -/
structure State where
  /-- A, the accumulator (10_state.md R11). -/
  a : Byte
  /-- X, index register (R12). -/
  x : Byte
  /-- Y, index register (R13). -/
  y : Byte
  /-- P, the processor status byte, all eight bits storage (R16, R17). -/
  p : Byte
  /-- SP, the stack pointer, an offset into the stack page (R14). -/
  sp : Byte
  /-- PC, the program counter (R15, R31). -/
  pc : Word
  /-- The 65536 memory cells (20_memory.md R40), as the list of the cells that are not 0x00, addresses
  strictly rising. -/
  mem : List Host.Cell
  /-- runningState (R25). -/
  runningState : Bool
  /-- errorState (R25). -/
  errorState : Bool
  /-- The fault recorded at the last Halt (R26; 60_exceptions.md R244). -/
  lastFault : Option Fault
  /-- The instruction counter (R26; 40_execution_and_addressing.md R101). No instruction reads it. -/
  count : Nat
  /-- The display-sink calls so far, oldest first (20_memory.md R45). -/
  sink : List SinkCall
  /-- The log lines so far, oldest first (60_exceptions.md R250). -/
  log : List LogLine
  /-- The MODEL's field for the OPEN parameter RNG_ADDR (00_scope.md R3): the tap is 0x00:rngAddr. No
  step and no command changes it. Log entry 2. -/
  rngAddr : Byte
  /-- The MODEL's field: how many reads of the tap have been made. It picks the next free value
  `Config.draw draws` (20_memory.md R42). Log entry 1. -/
  draws : Nat
  deriving DecidableEq, Repr

/-- What a memory cell that is not listed reads as: every cell is 0x00 after Reset (10_state.md R28). -/
def unlistedByte : Byte := 0x00

/-- The machine right after Reset (10_state.md R28; 70_reset_and_hazards.md R270): Stopped, no program,
one log line emitted. The instruction counter's value is a DESIGN CHOICE (log entry 5). -/
def State.reset : State where
  a := 0x00
  x := 0x00
  y := 0x00
  p := 0x00
  sp := Config.stackTop
  pc := Config.defaultStart
  mem := []
  runningState := false
  errorState := false
  lastFault := none
  count := 0
  sink := []
  log := [.reset]
  rngAddr := Config.rngAddr
  draws := 0

end Sys2Proof.Machine
end

