-- ==== Sys2Proof/Machine/Ops.lean ====
section
/-! DEFINITION. The named operations over memory, the stack and the run state: the memory list, MemRead
and MemWrite (20_memory.md R42 to R47), Push, Pop and PopReturn (40_execution_and_addressing.md R118 to
R120), how an instruction ends (R101) and how a fault is taken (60_exceptions.md R244). -/

namespace Sys2Proof.Machine

/-! ## Bytes and words (00_scope.md R4) -/

/-- The word with high byte `hi` and low byte `lo`: `hi * 256 + lo` (R4). -/
def wordOf (lo hi : Byte) : Word := hi ++ lo

/-- The low byte of a word, `w[7:0]` (R4). -/
def lowByte (w : Word) : Byte := w.setWidth 8

/-- The high byte of a word, `w[15:8]` (R4). -/
def highByte (w : Word) : Byte := (w >>> 8).setWidth 8

/-- `zext_16(b)` (R4): a byte read as a word. -/
def zext16 (b : Byte) : Word := b.setWidth 16

/-! ## The memory list -/

/-- The byte at an address; an address that is not listed reads as `unlistedByte`. -/
def Memory.get : List Host.Cell → Nat → Byte
  | [], _ => unlistedByte
  | (k, v) :: rest, a => if k = a then v else Memory.get rest a

/-- Set the byte at an address, keeping the canonical form: an address that now reads as
`unlistedByte` is not listed. -/
def Memory.set : List Host.Cell → Nat → Byte → List Host.Cell
  | [], a, v => if v = unlistedByte then [] else [(a, v)]
  | (k, u) :: rest, a, v =>
    if a < k then (if v = unlistedByte then (k, u) :: rest else (a, v) :: (k, u) :: rest)
    else if a = k then (if v = unlistedByte then rest else (k, v) :: rest)
    else (k, u) :: Memory.set rest a v

/-- The canonical form from the address `lo` on: addresses strictly rising, all below 65536, and no
listed byte equal to `unlistedByte`. -/
def Memory.wfFrom : Nat → List Host.Cell → Bool
  | _, [] => true
  | lo, (k, v) :: rest => decide (lo ≤ k) && decide (k < 65536) && v != unlistedByte && Memory.wfFrom (k + 1) rest

/-- The canonical form of a memory. -/
def Memory.wf (m : List Host.Cell) : Bool := Memory.wfFrom 0 m

/-! ## The read and write ports -/

/-- Whether an address is RNG_ADDR, the random-number tap in the zero page (20_memory.md R43). -/
def State.isTap (s : State) (addr : Word) : Bool := decide (addr.toNat < 256) && addr.setWidth 8 == s.rngAddr

/-- MemRead (R42): at the tap a fresh draw, elsewhere the stored byte. Nothing else changes but the
model's count of draws. -/
def memRead (addr : Word) (s : State) : Byte × State :=
  if s.isTap addr then (Config.draw s.draws, { s with draws := s.draws + 1 })
  else (Memory.get s.mem addr.toNat, s)

/-- Whether an address lies in the display window (R45). -/
def inDisplay (addr : Word) : Bool := decide (Config.displayBase ≤ addr) && decide (addr ≤ Config.displayTop)

/-- MemWrite (R44): store the byte, then call the display sink once if the address is in the window. -/
def memWrite (addr : Word) (v : Byte) (s : State) : State :=
  { s with
    mem := Memory.set s.mem addr.toNat v
    sink := if inDisplay addr then s.sink ++ [(addr, v)] else s.sink }

/-- ReadWord (R47): low byte first, high byte at `addr + 1` modulo 65536. -/
def readWord (addr : Word) (s : State) : Word × State :=
  let lo := memRead addr s
  let hi := memRead (addr + 1) lo.2
  (wordOf lo.1 hi.1, hi.2)

/-! ## What a statement that may raise answers -/

/-- The outcome of a part of an instruction: it goes on with a value, or it has raised a fault in the
state it had reached (R101: what was written before the raise stays written). -/
inductive Res (α : Type) where
  | ok (v : α) (s : State)
  | raise (f : Fault) (s : State)
  deriving DecidableEq, Repr

/-- Go on with the next statement; a raise ends the instruction at that point. -/
def Res.andThen {α β : Type} (r : Res α) (k : α → State → Res β) : Res β :=
  match r with
  | .ok v s => k v s
  | .raise f s => .raise f s

/-! ## The stack -/

/-- The cell SP designates: STACK_BASE + SP (10_state.md R14). -/
def stackAddr (sp : Byte) : Word := Config.stackBase + zext16 sp

/-- Push (40_execution_and_addressing.md R118): raise StackOverflow when SP = 0, else lower SP and then
store. -/
def push (v : Byte) (s : State) : Res Unit :=
  if s.sp = 0#8 then .raise .stackOverflow s
  else .ok () (memWrite (stackAddr (s.sp - 1)) v { s with sp := s.sp - 1 })

/-- Pop (R119): raise StackUnderflow when SP >= STACK_TOP, else read and then raise SP by one. -/
def pop (s : State) : Res Byte :=
  if Config.stackTop ≤ s.sp then .raise .stackUnderflow s
  else
    let r := memRead (stackAddr s.sp) s
    .ok r.1 { r.2 with sp := s.sp + 1 }

/-- Push a word, high byte first and then low byte (44_control_flow.md R202). -/
def pushWord (w : Word) (s : State) : Res Unit :=
  (push (highByte w) s).andThen fun _ s1 => push (lowByte w) s1

/-- Pop a word, low byte first and then high byte (R120). -/
def popWord (s : State) : Res Word :=
  (pop s).andThen fun lo s1 => (pop s1).andThen fun hi s2 => .ok (wordOf lo hi) s2

/-- PopReturn (R120): pop a word and set PC to it plus one. -/
def popReturn (s : State) : Res Unit :=
  (popWord s).andThen fun w s1 => .ok () { s1 with pc := w + 1 }

/-! ## How an instruction ends -/

/-- Halt(F), the one way a fault is taken (60_exceptions.md R244): running off, error on, the fault
recorded, one log line; no register, flag or memory cell changes. There is no return from it but Reset
(R248). -/
def halt (f : Fault) (s : State) : State :=
  { s with
    runningState := false
    errorState := true
    lastFault := some f
    log := s.log ++ [.halt f] }

/-- A step without a raise succeeds and the instruction counter goes up by one
(40_execution_and_addressing.md R101). -/
def complete (s : State) : Host.Outcome State Fault Refusal := .next { s with count := s.count + 1 }

/-- The end of an instruction that may raise: success, or Halt in the state reached (R101). -/
def finish (r : Res Unit) : Host.Outcome State Fault Refusal :=
  match r with
  | .ok _ s => complete s
  | .raise f s => .next (halt f s)

/-- Whether execute-one has an effect: Running and not Halted (R100). -/
def State.executing (s : State) : Bool := s.runningState && !s.errorState

end Sys2Proof.Machine
end

