-- ==== Sys2Proof/Machine/Flags.lean ====
section
/-! DEFINITION. The status register bit by bit (10_state.md R17) and every flag and ALU computation of
40_execution_and_addressing.md section 5 (R121 to R125). -/

namespace Sys2Proof.Machine

/-! ## The bits of P (10_state.md R17) -/

/-- Bit 0, Carry (R18). -/
def maskC : Byte := 0x01
/-- Bit 1, Zero (R19). -/
def maskZ : Byte := 0x02
/-- Bit 2, Interrupt disable: storage that gates nothing (R23). -/
def maskI : Byte := 0x04
/-- Bit 3, Decimal mode (R22). -/
def maskD : Byte := 0x08
/-- Bit 4, Break: storage (R24). -/
def maskB : Byte := 0x10
/-- Bit 6, Overflow (R21). -/
def maskV : Byte := 0x40
/-- Bit 7, Negative (R20). -/
def maskN : Byte := 0x80

/-- `checkFlag(mask)` (00_scope.md R5). -/
def checkFlag (mask p : Byte) : Bool := p &&& mask != 0

/-- `setFlag(mask, bool)`: set or clear that one bit of a status byte (R5; 10_state.md R16). -/
def setFlag (mask : Byte) (b : Bool) (p : Byte) : Byte := if b then p ||| mask else p &&& ~~~mask

/-- Set or clear one flag of the machine. -/
def State.setFlag (s : State) (mask : Byte) (b : Bool) : State := { s with p := Machine.setFlag mask b s.p }

/-- `P.C` read as a truth value. -/
def State.flagC (s : State) : Bool := checkFlag maskC s.p
/-- `P.Z` read as a truth value. -/
def State.flagZ (s : State) : Bool := checkFlag maskZ s.p
/-- `P.D` read as a truth value. -/
def State.flagD (s : State) : Bool := checkFlag maskD s.p
/-- `P.V` read as a truth value. -/
def State.flagV (s : State) : Bool := checkFlag maskV s.p
/-- `P.N` read as a truth value. -/
def State.flagN (s : State) : Bool := checkFlag maskN s.p

/-- SetNZ (R121) on a status byte: N from bit 7 of the value, Z when it is 0. -/
def nzBits (v p : Byte) : Byte := Machine.setFlag maskZ (v == 0) (Machine.setFlag maskN v.msb p)

/-- SetNZ (R121). -/
def setNZ (v : Byte) (s : State) : State := { s with p := nzBits v s.p }

/-! ## Compare (R122) -/

/-- The carry of a compare, by the formula CMP_CARRY names (R122; decision D8). -/
def compareCarry (r m : Byte) : Bool :=
  match Config.cmpCarry with
  | .borrow => decide (m ≤ r)
  | .addition => decide (r.toNat + m.toNat > 0xFF)

/-- Compare (R122): C from the unsigned comparison, N and Z from the 8-bit difference; no register and
no other flag. -/
def compare (r m : Byte) (s : State) : State := setNZ (r - m) (s.setFlag maskC (compareCarry r m))

/-! ## Branch targets (R123) -/

/-- BranchTarget (R123): an offset above 0x7F goes back by `0x100 - off`, another goes forward by
`off`, modulo 65536. -/
def branchTarget (a : Word) (off : Byte) : Word :=
  if 0x7F#8 < off then a - (0x100 - zext16 off) else a + zext16 off

/-! ## Add and subtract (R124, R125) -/

/-- What the ALU answers: the result byte, the carry out and the signed overflow of the binary
result. -/
structure Alu where
  result : Byte
  carry : Bool
  overflow : Bool
  deriving DecidableEq, Repr

/-- The decimal sum `s` of R124, after the low-digit and the high-digit correction. -/
def adcDecimalSum (a m c : Nat) : Nat :=
  let al := (a &&& 0x0F) + (m &&& 0x0F) + c
  let al := if 0x0A ≤ al then ((al + 0x06) &&& 0x0F) + 0x10 else al
  let s := (a &&& 0xF0) + (m &&& 0xF0) + al
  if 0xA0 ≤ s then s + 0x60 else s

/-- The computation of AddWithCarry (R124): `c` is the carry in, `d` selects decimal mode. -/
def adc (a m : Byte) (c d : Bool) : Alu :=
  let bin := a.toNat + m.toNat + c.toNat
  let v := (a.toNat ^^^ bin) &&& (m.toNat ^^^ bin) &&& 0x80 != 0
  let s := adcDecimalSum a.toNat m.toNat c.toNat
  if d then { result := BitVec.ofNat 8 s, carry := decide (0x100 ≤ s), overflow := v }
  else { result := BitVec.ofNat 8 bin, carry := decide (0xFF < bin), overflow := v }

/-- The decimal difference `s` of R125, after the low-digit and the high-digit correction. The `& 0x0F`
of a negative number is its remainder modulo 16 (00_scope.md R4). -/
def sbcDecimalDiff (a m c : Nat) : Int :=
  let al : Int := ((a &&& 0x0F : Nat) : Int) - ((m &&& 0x0F : Nat) : Int) + c - 1
  let al : Int := if al < 0 then (al - 0x06) % 16 - 0x10 else al
  let s : Int := ((a &&& 0xF0 : Nat) : Int) - ((m &&& 0xF0 : Nat) : Int) + al
  if s < 0 then s - 0x60 else s

/-- The computation of SubtractWithCarry (R125): `c` true means no borrow in, `d` selects decimal mode;
the carry is the binary no-borrow in both modes. -/
def sbc (a m : Byte) (c d : Bool) : Alu :=
  let bin : Int := (a.toNat : Int) - m.toNat - (1 - (c.toNat : Int))
  let rb := BitVec.ofInt 8 bin
  let v := (a ^^^ m) &&& (a ^^^ rb) &&& 0x80 != 0
  let r := if d then BitVec.ofInt 8 (sbcDecimalDiff a.toNat m.toNat c.toNat) else rb
  { result := r, carry := decide (0 ≤ bin), overflow := v }

/-- The last line of R124 and R125: V, C, then A, then N and Z from the result. -/
def aluResult (r : Alu) (s : State) : State :=
  setNZ r.result { (s.setFlag maskV r.overflow).setFlag maskC r.carry with a := r.result }

/-- AddWithCarry(m) (R124). -/
def addWithCarry (m : Byte) (s : State) : State := aluResult (adc s.a m s.flagC s.flagD) s

/-- SubtractWithCarry(m) (R125). -/
def subtractWithCarry (m : Byte) (s : State) : State := aluResult (sbc s.a m s.flagC s.flagD) s

end Sys2Proof.Machine
end

