-- ==== Sys2Proof/Machine/Operands.lean ====
section
/-! DEFINITION. The addressing-mode resolver (40_execution_and_addressing.md R106 to R117) and the
generic operand access of R127 and R128. The operand bytes have been fetched when these run, so each
takes them as its argument. -/

namespace Sys2Proof.Machine

/-- The nine modes that form an effective address, each with its operand byte or word (R107 to R115). -/
inductive Address where
  | zeroPage (b : Byte)
  | zeroPageX (b : Byte)
  | zeroPageY (b : Byte)
  | absolute (w : Word)
  | absoluteX (w : Word)
  | absoluteY (w : Word)
  | indirect (w : Word)
  | indexedIndirectX (b : Byte)
  | indirectIndexedY (b : Byte)
  deriving DecidableEq, Repr

/-- An 8-bit operand source of R127: an immediate byte or a memory operand. -/
inductive Source where
  | immediate (b : Byte)
  | memory (ea : Address)
  deriving DecidableEq, Repr

/-- EA_ZeroPage (R107). -/
def eaZeroPage (b : Byte) : Word := zext16 b

/-- EA_ZeroPageX (R108): the sum wraps inside the zero page. -/
def eaZeroPageX (b : Byte) (s : State) : Word := zext16 (b + s.x)

/-- EA_ZeroPageY (R109): the sum wraps inside the zero page. -/
def eaZeroPageY (b : Byte) (s : State) : Word := zext16 (b + s.y)

/-- EA_Absolute (R110). -/
def eaAbsolute (w : Word) : Word := w

/-- EA_AbsoluteX (R111): the sum wraps at 65536. -/
def eaAbsoluteX (w : Word) (s : State) : Word := w + zext16 s.x

/-- EA_AbsoluteY (R112): the sum wraps at 65536. -/
def eaAbsoluteY (w : Word) (s : State) : Word := w + zext16 s.y

/-- EA_Indirect (R113): the word stored at the pointer, no page wrap. -/
def eaIndirect (w : Word) (s : State) : Word × State := readWord w s

/-- EA_IndexedIndirectX (R114): the word stored at the zero-page pointer `(b + X) & 0xFF`. -/
def eaIndexedIndirectX (b : Byte) (s : State) : Word × State := readWord (zext16 (b + s.x)) s

/-- EA_IndirectIndexedY (R115): the word stored at zero-page pointer `b`, plus Y, modulo 65536. -/
def eaIndirectIndexedY (b : Byte) (s : State) : Word × State :=
  let w := readWord (zext16 b) s
  (w.1 + zext16 s.y, w.2)

/-- EA_<mode> (R107 to R115): the effective address and the state after the pointer reads, if the mode
makes any. -/
def Address.resolve (m : Address) (s : State) : Word × State :=
  match m with
  | .zeroPage b => (eaZeroPage b, s)
  | .zeroPageX b => (eaZeroPageX b s, s)
  | .zeroPageY b => (eaZeroPageY b s, s)
  | .absolute w => (eaAbsolute w, s)
  | .absoluteX w => (eaAbsoluteX w s, s)
  | .absoluteY w => (eaAbsoluteY w s, s)
  | .indirect w => eaIndirect w s
  | .indexedIndirectX b => eaIndexedIndirectX b s
  | .indirectIndexedY b => eaIndirectIndexedY b s

/-- ReadOperand (R127): the immediate byte, or exactly one read at the effective address. -/
def readOperand (src : Source) (s : State) : Byte × State :=
  match src with
  | .immediate b => (b, s)
  | .memory m =>
    let ea := m.resolve s
    memRead ea.1 ea.2

/-- The store of STA, STX, STY: one write at the effective address (41_load_store_transfer.md R143). -/
def storeAt (m : Address) (v : Byte) (s : State) : State :=
  let ea := m.resolve s
  memWrite ea.1 v ea.2

/-- Modify (R128): one read, then one write, of the same address; answers the old and the new byte. -/
def modify (m : Address) (f : Byte → Byte) (s : State) : (Byte × Byte) × State :=
  let ea := m.resolve s
  let old := memRead ea.1 ea.2
  ((old.1, f old.1), memWrite ea.1 (f old.1) old.2)

end Sys2Proof.Machine
end

