-- ==== Sys2Proof/Machine/Arithmetic.lean ====
section
/-! DEFINITION. Arithmetic, logic, bit test and compare (42_arithmetic_logic.md R160 to R168). Each meaning
runs after the fetch: PC is already past the instruction (10_state.md R31) and the operand bytes are its
arguments. -/

namespace Sys2Proof.Machine

/-- ADC: AddWithCarry of the operand (R160). -/
def addOperand (src : Source) (s : State) : Host.Outcome State Fault Refusal :=
  let m := readOperand src s
  complete (addWithCarry m.1 m.2)

/-- SBC: SubtractWithCarry of the operand (R161). -/
def subtractOperand (src : Source) (s : State) : Host.Outcome State Fault Refusal :=
  let m := readOperand src s
  complete (subtractWithCarry m.1 m.2)

/-- AND, ORA, EOR: combine A with the operand, N and Z from the result (R162, R163, R164). -/
def logicOperand (f : Byte → Byte → Byte) (src : Source) (s : State) : Host.Outcome State Fault Refusal :=
  let m := readOperand src s
  complete (setNZ (f s.a m.1) { m.2 with a := f s.a m.1 })

/-- BIT: Z from A and the operand, N and V from the operand's bits 7 and 6; A unchanged (R165). -/
def bitOperand (src : Source) (s : State) : Host.Outcome State Fault Refusal :=
  let m := readOperand src s
  complete (((m.2.setFlag maskZ (s.a &&& m.1 == 0)).setFlag maskN (m.1.getLsbD 7)).setFlag maskV (m.1.getLsbD 6))

/-- CMP, CPX, CPY: Compare of a register with the operand (R166, R167, R168). -/
def compareOperand (reg : Byte) (src : Source) (s : State) : Host.Outcome State Fault Refusal :=
  let m := readOperand src s
  complete (compare reg m.1 m.2)

/-- ADC, mode Immediate (R160). -/
@[simp] def execAdcImmediate (b : Byte) (s : State) : Host.Outcome State Fault Refusal := addOperand (.immediate b) s

/-- ADC, mode ZeroPage (R160). -/
@[simp] def execAdcZeroPage (b : Byte) (s : State) : Host.Outcome State Fault Refusal :=
  addOperand (.memory (.zeroPage b)) s

/-- ADC, mode ZeroPageX (R160). -/
@[simp] def execAdcZeroPageX (b : Byte) (s : State) : Host.Outcome State Fault Refusal :=
  addOperand (.memory (.zeroPageX b)) s

/-- ADC, mode Absolute (R160). -/
@[simp] def execAdcAbsolute (w : Word) (s : State) : Host.Outcome State Fault Refusal :=
  addOperand (.memory (.absolute w)) s

/-- ADC, mode AbsoluteX (R160). -/
@[simp] def execAdcAbsoluteX (w : Word) (s : State) : Host.Outcome State Fault Refusal :=
  addOperand (.memory (.absoluteX w)) s

/-- ADC, mode AbsoluteY (R160). -/
@[simp] def execAdcAbsoluteY (w : Word) (s : State) : Host.Outcome State Fault Refusal :=
  addOperand (.memory (.absoluteY w)) s

/-- ADC, mode IndexedIndirectX (R160). -/
@[simp] def execAdcIndexedIndirectX (b : Byte) (s : State) : Host.Outcome State Fault Refusal :=
  addOperand (.memory (.indexedIndirectX b)) s

/-- ADC, mode IndirectIndexedY (R160). -/
@[simp] def execAdcIndirectIndexedY (b : Byte) (s : State) : Host.Outcome State Fault Refusal :=
  addOperand (.memory (.indirectIndexedY b)) s

/-- SBC, mode Immediate (R161). -/
@[simp] def execSbcImmediate (b : Byte) (s : State) : Host.Outcome State Fault Refusal :=
  subtractOperand (.immediate b) s

/-- SBC, mode ZeroPage (R161). -/
@[simp] def execSbcZeroPage (b : Byte) (s : State) : Host.Outcome State Fault Refusal :=
  subtractOperand (.memory (.zeroPage b)) s

/-- SBC, mode ZeroPageX (R161). -/
@[simp] def execSbcZeroPageX (b : Byte) (s : State) : Host.Outcome State Fault Refusal :=
  subtractOperand (.memory (.zeroPageX b)) s

/-- SBC, mode Absolute (R161). -/
@[simp] def execSbcAbsolute (w : Word) (s : State) : Host.Outcome State Fault Refusal :=
  subtractOperand (.memory (.absolute w)) s

/-- SBC, mode AbsoluteX (R161). -/
@[simp] def execSbcAbsoluteX (w : Word) (s : State) : Host.Outcome State Fault Refusal :=
  subtractOperand (.memory (.absoluteX w)) s

/-- SBC, mode AbsoluteY (R161). -/
@[simp] def execSbcAbsoluteY (w : Word) (s : State) : Host.Outcome State Fault Refusal :=
  subtractOperand (.memory (.absoluteY w)) s

/-- SBC, mode IndexedIndirectX (R161). -/
@[simp] def execSbcIndexedIndirectX (b : Byte) (s : State) : Host.Outcome State Fault Refusal :=
  subtractOperand (.memory (.indexedIndirectX b)) s

/-- SBC, mode IndirectIndexedY (R161). -/
@[simp] def execSbcIndirectIndexedY (b : Byte) (s : State) : Host.Outcome State Fault Refusal :=
  subtractOperand (.memory (.indirectIndexedY b)) s

/-- AND, mode Immediate (R162). -/
@[simp] def execAndImmediate (b : Byte) (s : State) : Host.Outcome State Fault Refusal :=
  logicOperand (· &&& ·) (.immediate b) s

/-- AND, mode ZeroPage (R162). -/
@[simp] def execAndZeroPage (b : Byte) (s : State) : Host.Outcome State Fault Refusal :=
  logicOperand (· &&& ·) (.memory (.zeroPage b)) s

/-- AND, mode ZeroPageX (R162). -/
@[simp] def execAndZeroPageX (b : Byte) (s : State) : Host.Outcome State Fault Refusal :=
  logicOperand (· &&& ·) (.memory (.zeroPageX b)) s

/-- AND, mode Absolute (R162). -/
@[simp] def execAndAbsolute (w : Word) (s : State) : Host.Outcome State Fault Refusal :=
  logicOperand (· &&& ·) (.memory (.absolute w)) s

/-- AND, mode AbsoluteX (R162). -/
@[simp] def execAndAbsoluteX (w : Word) (s : State) : Host.Outcome State Fault Refusal :=
  logicOperand (· &&& ·) (.memory (.absoluteX w)) s

/-- AND, mode AbsoluteY (R162). -/
@[simp] def execAndAbsoluteY (w : Word) (s : State) : Host.Outcome State Fault Refusal :=
  logicOperand (· &&& ·) (.memory (.absoluteY w)) s

/-- AND, mode IndexedIndirectX (R162). -/
@[simp] def execAndIndexedIndirectX (b : Byte) (s : State) : Host.Outcome State Fault Refusal :=
  logicOperand (· &&& ·) (.memory (.indexedIndirectX b)) s

/-- AND, mode IndirectIndexedY (R162). -/
@[simp] def execAndIndirectIndexedY (b : Byte) (s : State) : Host.Outcome State Fault Refusal :=
  logicOperand (· &&& ·) (.memory (.indirectIndexedY b)) s

/-- ORA, mode Immediate (R163). -/
@[simp] def execOraImmediate (b : Byte) (s : State) : Host.Outcome State Fault Refusal :=
  logicOperand (· ||| ·) (.immediate b) s

/-- ORA, mode ZeroPage (R163). -/
@[simp] def execOraZeroPage (b : Byte) (s : State) : Host.Outcome State Fault Refusal :=
  logicOperand (· ||| ·) (.memory (.zeroPage b)) s

/-- ORA, mode ZeroPageX (R163). -/
@[simp] def execOraZeroPageX (b : Byte) (s : State) : Host.Outcome State Fault Refusal :=
  logicOperand (· ||| ·) (.memory (.zeroPageX b)) s

/-- ORA, mode Absolute (R163). -/
@[simp] def execOraAbsolute (w : Word) (s : State) : Host.Outcome State Fault Refusal :=
  logicOperand (· ||| ·) (.memory (.absolute w)) s

/-- ORA, mode AbsoluteX (R163). -/
@[simp] def execOraAbsoluteX (w : Word) (s : State) : Host.Outcome State Fault Refusal :=
  logicOperand (· ||| ·) (.memory (.absoluteX w)) s

/-- ORA, mode AbsoluteY (R163). -/
@[simp] def execOraAbsoluteY (w : Word) (s : State) : Host.Outcome State Fault Refusal :=
  logicOperand (· ||| ·) (.memory (.absoluteY w)) s

/-- ORA, mode IndexedIndirectX (R163). -/
@[simp] def execOraIndexedIndirectX (b : Byte) (s : State) : Host.Outcome State Fault Refusal :=
  logicOperand (· ||| ·) (.memory (.indexedIndirectX b)) s

/-- ORA, mode IndirectIndexedY (R163). -/
@[simp] def execOraIndirectIndexedY (b : Byte) (s : State) : Host.Outcome State Fault Refusal :=
  logicOperand (· ||| ·) (.memory (.indirectIndexedY b)) s

/-- EOR, mode Immediate (R164). -/
@[simp] def execEorImmediate (b : Byte) (s : State) : Host.Outcome State Fault Refusal :=
  logicOperand (· ^^^ ·) (.immediate b) s

/-- EOR, mode ZeroPage (R164). -/
@[simp] def execEorZeroPage (b : Byte) (s : State) : Host.Outcome State Fault Refusal :=
  logicOperand (· ^^^ ·) (.memory (.zeroPage b)) s

/-- EOR, mode ZeroPageX (R164). -/
@[simp] def execEorZeroPageX (b : Byte) (s : State) : Host.Outcome State Fault Refusal :=
  logicOperand (· ^^^ ·) (.memory (.zeroPageX b)) s

/-- EOR, mode Absolute (R164). -/
@[simp] def execEorAbsolute (w : Word) (s : State) : Host.Outcome State Fault Refusal :=
  logicOperand (· ^^^ ·) (.memory (.absolute w)) s

/-- EOR, mode AbsoluteX (R164). -/
@[simp] def execEorAbsoluteX (w : Word) (s : State) : Host.Outcome State Fault Refusal :=
  logicOperand (· ^^^ ·) (.memory (.absoluteX w)) s

/-- EOR, mode AbsoluteY (R164). -/
@[simp] def execEorAbsoluteY (w : Word) (s : State) : Host.Outcome State Fault Refusal :=
  logicOperand (· ^^^ ·) (.memory (.absoluteY w)) s

/-- EOR, mode IndexedIndirectX (R164). -/
@[simp] def execEorIndexedIndirectX (b : Byte) (s : State) : Host.Outcome State Fault Refusal :=
  logicOperand (· ^^^ ·) (.memory (.indexedIndirectX b)) s

/-- EOR, mode IndirectIndexedY (R164). -/
@[simp] def execEorIndirectIndexedY (b : Byte) (s : State) : Host.Outcome State Fault Refusal :=
  logicOperand (· ^^^ ·) (.memory (.indirectIndexedY b)) s

/-- BIT, mode ZeroPage (R165). -/
@[simp] def execBitZeroPage (b : Byte) (s : State) : Host.Outcome State Fault Refusal :=
  bitOperand (.memory (.zeroPage b)) s

/-- BIT, mode Absolute (R165). -/
@[simp] def execBitAbsolute (w : Word) (s : State) : Host.Outcome State Fault Refusal :=
  bitOperand (.memory (.absolute w)) s

/-- CMP, mode Immediate (R166). -/
@[simp] def execCmpImmediate (b : Byte) (s : State) : Host.Outcome State Fault Refusal :=
  compareOperand s.a (.immediate b) s

/-- CMP, mode ZeroPage (R166). -/
@[simp] def execCmpZeroPage (b : Byte) (s : State) : Host.Outcome State Fault Refusal :=
  compareOperand s.a (.memory (.zeroPage b)) s

/-- CMP, mode ZeroPageX (R166). -/
@[simp] def execCmpZeroPageX (b : Byte) (s : State) : Host.Outcome State Fault Refusal :=
  compareOperand s.a (.memory (.zeroPageX b)) s

/-- CMP, mode Absolute (R166). -/
@[simp] def execCmpAbsolute (w : Word) (s : State) : Host.Outcome State Fault Refusal :=
  compareOperand s.a (.memory (.absolute w)) s

/-- CMP, mode AbsoluteX (R166). -/
@[simp] def execCmpAbsoluteX (w : Word) (s : State) : Host.Outcome State Fault Refusal :=
  compareOperand s.a (.memory (.absoluteX w)) s

/-- CMP, mode AbsoluteY (R166). -/
@[simp] def execCmpAbsoluteY (w : Word) (s : State) : Host.Outcome State Fault Refusal :=
  compareOperand s.a (.memory (.absoluteY w)) s

/-- CMP, mode IndexedIndirectX (R166). -/
@[simp] def execCmpIndexedIndirectX (b : Byte) (s : State) : Host.Outcome State Fault Refusal :=
  compareOperand s.a (.memory (.indexedIndirectX b)) s

/-- CMP, mode IndirectIndexedY (R166). -/
@[simp] def execCmpIndirectIndexedY (b : Byte) (s : State) : Host.Outcome State Fault Refusal :=
  compareOperand s.a (.memory (.indirectIndexedY b)) s

/-- CPX, mode Immediate (R167). -/
@[simp] def execCpxImmediate (b : Byte) (s : State) : Host.Outcome State Fault Refusal :=
  compareOperand s.x (.immediate b) s

/-- CPX, mode ZeroPage (R167). -/
@[simp] def execCpxZeroPage (b : Byte) (s : State) : Host.Outcome State Fault Refusal :=
  compareOperand s.x (.memory (.zeroPage b)) s

/-- CPX, mode Absolute (R167). -/
@[simp] def execCpxAbsolute (w : Word) (s : State) : Host.Outcome State Fault Refusal :=
  compareOperand s.x (.memory (.absolute w)) s

/-- CPY, mode Immediate (R168). -/
@[simp] def execCpyImmediate (b : Byte) (s : State) : Host.Outcome State Fault Refusal :=
  compareOperand s.y (.immediate b) s

/-- CPY, mode ZeroPage (R168). -/
@[simp] def execCpyZeroPage (b : Byte) (s : State) : Host.Outcome State Fault Refusal :=
  compareOperand s.y (.memory (.zeroPage b)) s

/-- CPY, mode Absolute (R168). -/
@[simp] def execCpyAbsolute (w : Word) (s : State) : Host.Outcome State Fault Refusal :=
  compareOperand s.y (.memory (.absolute w)) s

end Sys2Proof.Machine
end

