-- ==== Sys2Proof/Machine/Control.lean ====
section
/-! DEFINITION. Jumps, subroutine call and return, conditional branches (44_control_flow.md R200 to R211).
Each meaning runs after the fetch: PC is already past the instruction (10_state.md R31) and the operand bytes
are its arguments. -/

namespace Sys2Proof.Machine

/-- A conditional branch: if the condition holds, PC goes to BranchTarget(PC, off), where PC is already
the address of the next instruction (44_control_flow.md section 3; R117, R123). -/
def branch (cond : Bool) (off : Byte) (s : State) : Host.Outcome State Fault Refusal :=
  complete (if cond then { s with pc := branchTarget s.pc off } else s)

/-- JMP, mode Absolute (R200). The operand word is the target itself. -/
@[simp] def execJmpAbsolute (w : Word) (s : State) : Host.Outcome State Fault Refusal :=
  complete { s with pc := eaAbsolute w }

/-- JMP, mode Indirect (R201). The target is the word stored at the operand address. -/
@[simp] def execJmpIndirect (w : Word) (s : State) : Host.Outcome State Fault Refusal :=
  let t := eaIndirect w s
  complete { t.2 with pc := t.1 }

/-- JSR, mode Absolute (R202): push PC - 1, the address of the instruction's last byte, then jump. -/
@[simp] def execJsr (w : Word) (s : State) : Host.Outcome State Fault Refusal :=
  finish ((pushWord (s.pc - 1) s).andThen fun _ s1 => .ok () { s1 with pc := w })

/-- RTS, mode Single (R203): PopReturn. -/
@[simp] def execRts (s : State) : Host.Outcome State Fault Refusal := finish (popReturn s)

/-- BCC, mode Relative (R204). -/
@[simp] def execBcc (b : Byte) (s : State) : Host.Outcome State Fault Refusal := branch (!s.flagC) b s

/-- BCS, mode Relative (R205). -/
@[simp] def execBcs (b : Byte) (s : State) : Host.Outcome State Fault Refusal := branch s.flagC b s

/-- BEQ, mode Relative (R206). -/
@[simp] def execBeq (b : Byte) (s : State) : Host.Outcome State Fault Refusal := branch s.flagZ b s

/-- BNE, mode Relative (R207). -/
@[simp] def execBne (b : Byte) (s : State) : Host.Outcome State Fault Refusal := branch (!s.flagZ) b s

/-- BMI, mode Relative (R208). -/
@[simp] def execBmi (b : Byte) (s : State) : Host.Outcome State Fault Refusal := branch s.flagN b s

/-- BPL, mode Relative (R209). -/
@[simp] def execBpl (b : Byte) (s : State) : Host.Outcome State Fault Refusal := branch (!s.flagN) b s

/-- BVC, mode Relative (R210). -/
@[simp] def execBvc (b : Byte) (s : State) : Host.Outcome State Fault Refusal := branch (!s.flagV) b s

/-- BVS, mode Relative (R211). -/
@[simp] def execBvs (b : Byte) (s : State) : Host.Outcome State Fault Refusal := branch s.flagV b s

end Sys2Proof.Machine
end

