-- ==== Sys2Proof/Machine/IncDecShift.lean ====
section
/-! DEFINITION. Increments, decrements, shifts and rotates (43_incdec_shift.md R180 to R189). Each meaning
runs after the fetch: PC is already past the instruction (10_state.md R31) and the operand bytes are its
arguments. -/

namespace Sys2Proof.Machine

/-- INC and DEC: modify the cell, N and Z from the new value, C untouched (R180, R181). -/
def modifyNZ (m : Address) (f : Byte → Byte) (s : State) : Host.Outcome State Fault Refusal :=
  let r := modify m f s
  complete (setNZ r.1.2 r.2)

/-- ASL: shift left, bit 0 becomes 0 (R186). -/
def shiftLeft (v : Byte) : Byte := v <<< 1

/-- LSR: shift right, bit 7 becomes 0 (R187). -/
def shiftRight (v : Byte) : Byte := v >>> 1

/-- ROL: shift left, bit 0 becomes the old carry (R188). -/
def rotateLeft (c : Bool) (v : Byte) : Byte := (v <<< 1) ||| (if c then 0x01 else 0x00)

/-- ROR: shift right, bit 7 becomes the old carry (R189). -/
def rotateRight (c : Bool) (v : Byte) : Byte := (v >>> 1) ||| (if c then 0x80 else 0x00)

/-- The bit a left shift or rotate moves out into C: the old bit 7 (R186, R188). -/
def outLeft (v : Byte) : Bool := v.getLsbD 7

/-- The bit a right shift or rotate moves out into C: the old bit 0 (R187, R189). -/
def outRight (v : Byte) : Bool := v.getLsbD 0

/-- The accumulator form of a shift or rotate: C from the bit moved out, N and Z from the result (R186 to
R189, mode Single). -/
def shiftAccumulator (f : Byte → Byte) (out : Byte → Bool) (s : State) : Host.Outcome State Fault Refusal :=
  complete (setNZ (f s.a) ({ s with a := f s.a }.setFlag maskC (out s.a)))

/-- The memory form of a shift or rotate: Modify, C from the bit moved out, N and Z from the result (R186
to R189). -/
def shiftMemory (m : Address) (f : Byte → Byte) (out : Byte → Bool) (s : State) : Host.Outcome State Fault Refusal :=
  let r := modify m f s
  complete (setNZ r.1.2 (r.2.setFlag maskC (out r.1.1)))

/-- INC, mode ZeroPage (R180). -/
@[simp] def execIncZeroPage (b : Byte) (s : State) : Host.Outcome State Fault Refusal :=
  modifyNZ (.zeroPage b) (· + 1) s

/-- INC, mode ZeroPageX (R180). -/
@[simp] def execIncZeroPageX (b : Byte) (s : State) : Host.Outcome State Fault Refusal :=
  modifyNZ (.zeroPageX b) (· + 1) s

/-- INC, mode Absolute (R180). -/
@[simp] def execIncAbsolute (w : Word) (s : State) : Host.Outcome State Fault Refusal :=
  modifyNZ (.absolute w) (· + 1) s

/-- INC, mode AbsoluteX (R180). -/
@[simp] def execIncAbsoluteX (w : Word) (s : State) : Host.Outcome State Fault Refusal :=
  modifyNZ (.absoluteX w) (· + 1) s

/-- DEC, mode ZeroPage (R181). -/
@[simp] def execDecZeroPage (b : Byte) (s : State) : Host.Outcome State Fault Refusal :=
  modifyNZ (.zeroPage b) (· - 1) s

/-- DEC, mode ZeroPageX (R181). -/
@[simp] def execDecZeroPageX (b : Byte) (s : State) : Host.Outcome State Fault Refusal :=
  modifyNZ (.zeroPageX b) (· - 1) s

/-- DEC, mode Absolute (R181). -/
@[simp] def execDecAbsolute (w : Word) (s : State) : Host.Outcome State Fault Refusal :=
  modifyNZ (.absolute w) (· - 1) s

/-- DEC, mode AbsoluteX (R181). -/
@[simp] def execDecAbsoluteX (w : Word) (s : State) : Host.Outcome State Fault Refusal :=
  modifyNZ (.absoluteX w) (· - 1) s

/-- INX, mode Single (R182). -/
@[simp] def execInx (s : State) : Host.Outcome State Fault Refusal := complete (setNZ (s.x + 1) { s with x := s.x + 1 })

/-- INY, mode Single (R183). -/
@[simp] def execIny (s : State) : Host.Outcome State Fault Refusal := complete (setNZ (s.y + 1) { s with y := s.y + 1 })

/-- DEX, mode Single (R184). -/
@[simp] def execDex (s : State) : Host.Outcome State Fault Refusal := complete (setNZ (s.x - 1) { s with x := s.x - 1 })

/-- DEY, mode Single (R185). -/
@[simp] def execDey (s : State) : Host.Outcome State Fault Refusal := complete (setNZ (s.y - 1) { s with y := s.y - 1 })

/-- ASL, mode ZeroPage (R186). -/
@[simp] def execAslZeroPage (b : Byte) (s : State) : Host.Outcome State Fault Refusal :=
  shiftMemory (.zeroPage b) shiftLeft outLeft s

/-- ASL, mode ZeroPageX (R186). -/
@[simp] def execAslZeroPageX (b : Byte) (s : State) : Host.Outcome State Fault Refusal :=
  shiftMemory (.zeroPageX b) shiftLeft outLeft s

/-- ASL, mode Absolute (R186). -/
@[simp] def execAslAbsolute (w : Word) (s : State) : Host.Outcome State Fault Refusal :=
  shiftMemory (.absolute w) shiftLeft outLeft s

/-- ASL, mode AbsoluteX (R186). -/
@[simp] def execAslAbsoluteX (w : Word) (s : State) : Host.Outcome State Fault Refusal :=
  shiftMemory (.absoluteX w) shiftLeft outLeft s

/-- ASL, mode Single (R186). -/
@[simp] def execAslAccumulator (s : State) : Host.Outcome State Fault Refusal := shiftAccumulator shiftLeft outLeft s

/-- LSR, mode ZeroPage (R187). -/
@[simp] def execLsrZeroPage (b : Byte) (s : State) : Host.Outcome State Fault Refusal :=
  shiftMemory (.zeroPage b) shiftRight outRight s

/-- LSR, mode ZeroPageX (R187). -/
@[simp] def execLsrZeroPageX (b : Byte) (s : State) : Host.Outcome State Fault Refusal :=
  shiftMemory (.zeroPageX b) shiftRight outRight s

/-- LSR, mode Absolute (R187). -/
@[simp] def execLsrAbsolute (w : Word) (s : State) : Host.Outcome State Fault Refusal :=
  shiftMemory (.absolute w) shiftRight outRight s

/-- LSR, mode AbsoluteX (R187). -/
@[simp] def execLsrAbsoluteX (w : Word) (s : State) : Host.Outcome State Fault Refusal :=
  shiftMemory (.absoluteX w) shiftRight outRight s

/-- LSR, mode Single (R187). -/
@[simp] def execLsrAccumulator (s : State) : Host.Outcome State Fault Refusal := shiftAccumulator shiftRight outRight s

/-- ROL, mode ZeroPage (R188). -/
@[simp] def execRolZeroPage (b : Byte) (s : State) : Host.Outcome State Fault Refusal :=
  shiftMemory (.zeroPage b) (rotateLeft s.flagC) outLeft s

/-- ROL, mode ZeroPageX (R188). -/
@[simp] def execRolZeroPageX (b : Byte) (s : State) : Host.Outcome State Fault Refusal :=
  shiftMemory (.zeroPageX b) (rotateLeft s.flagC) outLeft s

/-- ROL, mode Absolute (R188). -/
@[simp] def execRolAbsolute (w : Word) (s : State) : Host.Outcome State Fault Refusal :=
  shiftMemory (.absolute w) (rotateLeft s.flagC) outLeft s

/-- ROL, mode AbsoluteX (R188). -/
@[simp] def execRolAbsoluteX (w : Word) (s : State) : Host.Outcome State Fault Refusal :=
  shiftMemory (.absoluteX w) (rotateLeft s.flagC) outLeft s

/-- ROL, mode Single (R188). -/
@[simp] def execRolAccumulator (s : State) : Host.Outcome State Fault Refusal :=
  shiftAccumulator (rotateLeft s.flagC) outLeft s

/-- ROR, mode ZeroPage (R189). -/
@[simp] def execRorZeroPage (b : Byte) (s : State) : Host.Outcome State Fault Refusal :=
  shiftMemory (.zeroPage b) (rotateRight s.flagC) outRight s

/-- ROR, mode ZeroPageX (R189). -/
@[simp] def execRorZeroPageX (b : Byte) (s : State) : Host.Outcome State Fault Refusal :=
  shiftMemory (.zeroPageX b) (rotateRight s.flagC) outRight s

/-- ROR, mode Absolute (R189). -/
@[simp] def execRorAbsolute (w : Word) (s : State) : Host.Outcome State Fault Refusal :=
  shiftMemory (.absolute w) (rotateRight s.flagC) outRight s

/-- ROR, mode AbsoluteX (R189). -/
@[simp] def execRorAbsoluteX (w : Word) (s : State) : Host.Outcome State Fault Refusal :=
  shiftMemory (.absoluteX w) (rotateRight s.flagC) outRight s

/-- ROR, mode Single (R189). -/
@[simp] def execRorAccumulator (s : State) : Host.Outcome State Fault Refusal :=
  shiftAccumulator (rotateRight s.flagC) outRight s

end Sys2Proof.Machine
end

