-- ==== Sys2Proof/Machine/LoadStore.lean ====
section
/-! DEFINITION. Loads, stores and register transfers (41_load_store_transfer.md R140 to R151). Each meaning
runs after the fetch: PC is already past the instruction (10_state.md R31) and the operand bytes are its
arguments. -/

namespace Sys2Proof.Machine

/-- LDA: read the operand into A and set N and Z from it (R140). -/
def loadA (src : Source) (s : State) : Host.Outcome State Fault Refusal :=
  let m := readOperand src s
  complete (setNZ m.1 { m.2 with a := m.1 })

/-- LDX: read the operand into X and set N and Z from it (R141). -/
def loadX (src : Source) (s : State) : Host.Outcome State Fault Refusal :=
  let m := readOperand src s
  complete (setNZ m.1 { m.2 with x := m.1 })

/-- LDY: read the operand into Y and set N and Z from it (R142). -/
def loadY (src : Source) (s : State) : Host.Outcome State Fault Refusal :=
  let m := readOperand src s
  complete (setNZ m.1 { m.2 with y := m.1 })

/-- LDA, mode Immediate (R140). -/
@[simp] def execLdaImmediate (b : Byte) (s : State) : Host.Outcome State Fault Refusal := loadA (.immediate b) s

/-- LDA, mode ZeroPage (R140). -/
@[simp] def execLdaZeroPage (b : Byte) (s : State) : Host.Outcome State Fault Refusal := loadA (.memory (.zeroPage b)) s

/-- LDA, mode ZeroPageX (R140). -/
@[simp] def execLdaZeroPageX (b : Byte) (s : State) : Host.Outcome State Fault Refusal :=
  loadA (.memory (.zeroPageX b)) s

/-- LDA, mode Absolute (R140). -/
@[simp] def execLdaAbsolute (w : Word) (s : State) : Host.Outcome State Fault Refusal := loadA (.memory (.absolute w)) s

/-- LDA, mode AbsoluteX (R140). -/
@[simp] def execLdaAbsoluteX (w : Word) (s : State) : Host.Outcome State Fault Refusal :=
  loadA (.memory (.absoluteX w)) s

/-- LDA, mode AbsoluteY (R140). -/
@[simp] def execLdaAbsoluteY (w : Word) (s : State) : Host.Outcome State Fault Refusal :=
  loadA (.memory (.absoluteY w)) s

/-- LDA, mode IndexedIndirectX (R140). -/
@[simp] def execLdaIndexedIndirectX (b : Byte) (s : State) : Host.Outcome State Fault Refusal :=
  loadA (.memory (.indexedIndirectX b)) s

/-- LDA, mode IndirectIndexedY (R140). -/
@[simp] def execLdaIndirectIndexedY (b : Byte) (s : State) : Host.Outcome State Fault Refusal :=
  loadA (.memory (.indirectIndexedY b)) s

/-- LDX, mode Immediate (R141). -/
@[simp] def execLdxImmediate (b : Byte) (s : State) : Host.Outcome State Fault Refusal := loadX (.immediate b) s

/-- LDX, mode ZeroPage (R141). -/
@[simp] def execLdxZeroPage (b : Byte) (s : State) : Host.Outcome State Fault Refusal := loadX (.memory (.zeroPage b)) s

/-- LDX, mode ZeroPageY (R141). -/
@[simp] def execLdxZeroPageY (b : Byte) (s : State) : Host.Outcome State Fault Refusal :=
  loadX (.memory (.zeroPageY b)) s

/-- LDX, mode Absolute (R141). -/
@[simp] def execLdxAbsolute (w : Word) (s : State) : Host.Outcome State Fault Refusal := loadX (.memory (.absolute w)) s

/-- LDX, mode AbsoluteY (R141). -/
@[simp] def execLdxAbsoluteY (w : Word) (s : State) : Host.Outcome State Fault Refusal :=
  loadX (.memory (.absoluteY w)) s

/-- LDY, mode Immediate (R142). -/
@[simp] def execLdyImmediate (b : Byte) (s : State) : Host.Outcome State Fault Refusal := loadY (.immediate b) s

/-- LDY, mode ZeroPage (R142). -/
@[simp] def execLdyZeroPage (b : Byte) (s : State) : Host.Outcome State Fault Refusal := loadY (.memory (.zeroPage b)) s

/-- LDY, mode ZeroPageX (R142). -/
@[simp] def execLdyZeroPageX (b : Byte) (s : State) : Host.Outcome State Fault Refusal :=
  loadY (.memory (.zeroPageX b)) s

/-- LDY, mode Absolute (R142). -/
@[simp] def execLdyAbsolute (w : Word) (s : State) : Host.Outcome State Fault Refusal := loadY (.memory (.absolute w)) s

/-- LDY, mode AbsoluteX (R142). -/
@[simp] def execLdyAbsoluteX (w : Word) (s : State) : Host.Outcome State Fault Refusal :=
  loadY (.memory (.absoluteX w)) s

/-- STA, mode ZeroPage (R143). -/
@[simp] def execStaZeroPage (b : Byte) (s : State) : Host.Outcome State Fault Refusal :=
  complete (storeAt (.zeroPage b) s.a s)

/-- STA, mode ZeroPageX (R143). -/
@[simp] def execStaZeroPageX (b : Byte) (s : State) : Host.Outcome State Fault Refusal :=
  complete (storeAt (.zeroPageX b) s.a s)

/-- STA, mode Absolute (R143). -/
@[simp] def execStaAbsolute (w : Word) (s : State) : Host.Outcome State Fault Refusal :=
  complete (storeAt (.absolute w) s.a s)

/-- STA, mode AbsoluteX (R143). -/
@[simp] def execStaAbsoluteX (w : Word) (s : State) : Host.Outcome State Fault Refusal :=
  complete (storeAt (.absoluteX w) s.a s)

/-- STA, mode AbsoluteY (R143). -/
@[simp] def execStaAbsoluteY (w : Word) (s : State) : Host.Outcome State Fault Refusal :=
  complete (storeAt (.absoluteY w) s.a s)

/-- STA, mode IndexedIndirectX (R143). -/
@[simp] def execStaIndexedIndirectX (b : Byte) (s : State) : Host.Outcome State Fault Refusal :=
  complete (storeAt (.indexedIndirectX b) s.a s)

/-- STA, mode IndirectIndexedY (R143). -/
@[simp] def execStaIndirectIndexedY (b : Byte) (s : State) : Host.Outcome State Fault Refusal :=
  complete (storeAt (.indirectIndexedY b) s.a s)

/-- STX, mode ZeroPage (R144). -/
@[simp] def execStxZeroPage (b : Byte) (s : State) : Host.Outcome State Fault Refusal :=
  complete (storeAt (.zeroPage b) s.x s)

/-- STX, mode ZeroPageY (R144). -/
@[simp] def execStxZeroPageY (b : Byte) (s : State) : Host.Outcome State Fault Refusal :=
  complete (storeAt (.zeroPageY b) s.x s)

/-- STX, mode Absolute (R144). -/
@[simp] def execStxAbsolute (w : Word) (s : State) : Host.Outcome State Fault Refusal :=
  complete (storeAt (.absolute w) s.x s)

/-- STY, mode ZeroPage (R145). -/
@[simp] def execStyZeroPage (b : Byte) (s : State) : Host.Outcome State Fault Refusal :=
  complete (storeAt (.zeroPage b) s.y s)

/-- STY, mode ZeroPageX (R145). -/
@[simp] def execStyZeroPageX (b : Byte) (s : State) : Host.Outcome State Fault Refusal :=
  complete (storeAt (.zeroPageX b) s.y s)

/-- STY, mode Absolute (R145). -/
@[simp] def execStyAbsolute (w : Word) (s : State) : Host.Outcome State Fault Refusal :=
  complete (storeAt (.absolute w) s.y s)

/-- TAX, mode Single (R146). -/
@[simp] def execTax (s : State) : Host.Outcome State Fault Refusal := complete (setNZ s.a { s with x := s.a })

/-- TAY, mode Single (R147). -/
@[simp] def execTay (s : State) : Host.Outcome State Fault Refusal := complete (setNZ s.a { s with y := s.a })

/-- TXA, mode Single (R148). -/
@[simp] def execTxa (s : State) : Host.Outcome State Fault Refusal := complete (setNZ s.x { s with a := s.x })

/-- TYA, mode Single (R149). -/
@[simp] def execTya (s : State) : Host.Outcome State Fault Refusal := complete (setNZ s.y { s with a := s.y })

/-- TSX, mode Single (R150). -/
@[simp] def execTsx (s : State) : Host.Outcome State Fault Refusal := complete (setNZ s.sp { s with x := s.sp })

/-- TXS, mode Single (R151). The one transfer that sets no flag. -/
@[simp] def execTxs (s : State) : Host.Outcome State Fault Refusal := complete { s with sp := s.x }

end Sys2Proof.Machine
end

