-- ==== Sys2Proof/Machine/System.lean ====
section
/-! DEFINITION. Stack, flag and system instructions (45_stack_flags_system.md R220 to R233) and the invalid
entry (60_exceptions.md R241). Each meaning runs after the fetch: PC is already past the instruction
(10_state.md R31) and the operand bytes are its arguments. -/

namespace Sys2Proof.Machine

/-- The software break of BRK (R232): push PC + 1, push P with bit 4 set, set P.I, load PC from
BRK_VECTOR. `P.B` itself is unchanged. -/
def softwareBreak (s : State) : Res Unit :=
  (pushWord (s.pc + 1) s).andThen fun _ s1 =>
    (push (s1.p ||| maskB) s1).andThen fun _ s2 =>
      let v := readWord Config.brkVector (s2.setFlag maskI true)
      .ok () { v.2 with pc := v.1 }

/-- The return of RTI (R233): pop P, then the return word; P and PC are written only when all three pops
have succeeded. -/
def softwareReturn (s : State) : Res Unit :=
  (pop s).andThen fun p s1 =>
    (popWord s1).andThen fun w s2 => .ok () { s2 with p := p, pc := w }

/-- PHA, mode Single (R220). -/
@[simp] def execPha (s : State) : Host.Outcome State Fault Refusal := finish (push s.a s)

/-- PLA, mode Single (R221). -/
@[simp] def execPla (s : State) : Host.Outcome State Fault Refusal :=
  finish ((pop s).andThen fun v s1 => .ok () (setNZ v { s1 with a := v }))

/-- PHP, mode Single (R222). All eight bits exactly as stored. -/
@[simp] def execPhp (s : State) : Host.Outcome State Fault Refusal := finish (push s.p s)

/-- PLP, mode Single (R223). All eight bits. -/
@[simp] def execPlp (s : State) : Host.Outcome State Fault Refusal :=
  finish ((pop s).andThen fun v s1 => .ok () { s1 with p := v })

/-- CLC, mode Single (R224). -/
@[simp] def execClc (s : State) : Host.Outcome State Fault Refusal := complete (s.setFlag maskC false)

/-- SEC, mode Single (R225). -/
@[simp] def execSec (s : State) : Host.Outcome State Fault Refusal := complete (s.setFlag maskC true)

/-- CLD, mode Single (R226). -/
@[simp] def execCld (s : State) : Host.Outcome State Fault Refusal := complete (s.setFlag maskD false)

/-- SED, mode Single (R227). -/
@[simp] def execSed (s : State) : Host.Outcome State Fault Refusal := complete (s.setFlag maskD true)

/-- CLI, mode Single (R228). -/
@[simp] def execCli (s : State) : Host.Outcome State Fault Refusal := complete (s.setFlag maskI false)

/-- SEI, mode Single (R229). -/
@[simp] def execSei (s : State) : Host.Outcome State Fault Refusal := complete (s.setFlag maskI true)

/-- CLV, mode Single (R230). -/
@[simp] def execClv (s : State) : Host.Outcome State Fault Refusal := complete (s.setFlag maskV false)

/-- NOP, mode Single (R231). -/
@[simp] def execNop (s : State) : Host.Outcome State Fault Refusal := complete s

/-- BRK, mode Single (R232). -/
@[simp] def execBrk (s : State) : Host.Outcome State Fault Refusal := finish (softwareBreak s)

/-- RTI, mode Single (R233). -/
@[simp] def execRti (s : State) : Host.Outcome State Fault Refusal := finish (softwareReturn s)

/-- The invalid entry `???` (60_exceptions.md R241; 30_encoding.md R78): raise InvalidOpcode with the slot's
own opcode, nothing else done. -/
@[simp] def execInvalid (op : Byte) (s : State) : Host.Outcome State Fault Refusal :=
  finish (.raise (.invalidOpcode op) s)

end Sys2Proof.Machine
end

