-- ==== Sys2Proof/Syntax.lean ====
section
/-! DEFINITION. The syntax of the T6502's instructions: one constructor for each populated row of
spec/opcode_table.json (30_encoding.md R76) and one for the catch-all invalid entry (R78), the twelve
addressing modes (R72) and the mode, mnemonic and size of each entry (R71, R72). -/

namespace Sys2Proof

/-- The twelve addressing modes, in the order of 30_encoding.md R72. -/
inductive Mode where
  | immediate
  | zeroPage
  | zeroPageX
  | zeroPageY
  | absolute
  | absoluteX
  | absoluteY
  | indirect
  | indexedIndirectX
  | indirectIndexedY
  | single
  | relative
  deriving DecidableEq, Repr

/-- The size in bytes of an instruction in each mode, opcode byte included (R72, conflict C6). -/
def Mode.size : Mode → Nat
  | .immediate | .zeroPage | .zeroPageX | .zeroPageY => 2
  | .absolute | .absoluteX | .absoluteY | .indirect => 3
  | .indexedIndirectX | .indirectIndexedY => 2
  | .single => 1
  | .relative => 2

/-- An instruction with its operand bytes: `b` is the operand byte b1 of a size-2 instruction, `w` the
16-bit operand b2*256 + b1 of a size-3 instruction (R70, R73). A constructor is named by its mnemonic
and, where the mnemonic has more than one mode, its mode; the accumulator forms of the shifts and
rotates are the entries of mode Single (R72, decision D14). -/
inductive Instr where
  | ldaImmediate (b : Byte)
  | ldaZeroPage (b : Byte)
  | ldaZeroPageX (b : Byte)
  | ldaAbsolute (w : Word)
  | ldaAbsoluteX (w : Word)
  | ldaAbsoluteY (w : Word)
  | ldaIndexedIndirectX (b : Byte)
  | ldaIndirectIndexedY (b : Byte)
  | ldxImmediate (b : Byte)
  | ldxZeroPage (b : Byte)
  | ldxZeroPageY (b : Byte)
  | ldxAbsolute (w : Word)
  | ldxAbsoluteY (w : Word)
  | ldyImmediate (b : Byte)
  | ldyZeroPage (b : Byte)
  | ldyZeroPageX (b : Byte)
  | ldyAbsolute (w : Word)
  | ldyAbsoluteX (w : Word)
  | staZeroPage (b : Byte)
  | staZeroPageX (b : Byte)
  | staAbsolute (w : Word)
  | staAbsoluteX (w : Word)
  | staAbsoluteY (w : Word)
  | staIndexedIndirectX (b : Byte)
  | staIndirectIndexedY (b : Byte)
  | stxZeroPage (b : Byte)
  | stxZeroPageY (b : Byte)
  | stxAbsolute (w : Word)
  | styZeroPage (b : Byte)
  | styZeroPageX (b : Byte)
  | styAbsolute (w : Word)
  | tax
  | tay
  | txa
  | tya
  | tsx
  | txs
  | adcImmediate (b : Byte)
  | adcZeroPage (b : Byte)
  | adcZeroPageX (b : Byte)
  | adcAbsolute (w : Word)
  | adcAbsoluteX (w : Word)
  | adcAbsoluteY (w : Word)
  | adcIndexedIndirectX (b : Byte)
  | adcIndirectIndexedY (b : Byte)
  | sbcImmediate (b : Byte)
  | sbcZeroPage (b : Byte)
  | sbcZeroPageX (b : Byte)
  | sbcAbsolute (w : Word)
  | sbcAbsoluteX (w : Word)
  | sbcAbsoluteY (w : Word)
  | sbcIndexedIndirectX (b : Byte)
  | sbcIndirectIndexedY (b : Byte)
  | andImmediate (b : Byte)
  | andZeroPage (b : Byte)
  | andZeroPageX (b : Byte)
  | andAbsolute (w : Word)
  | andAbsoluteX (w : Word)
  | andAbsoluteY (w : Word)
  | andIndexedIndirectX (b : Byte)
  | andIndirectIndexedY (b : Byte)
  | oraImmediate (b : Byte)
  | oraZeroPage (b : Byte)
  | oraZeroPageX (b : Byte)
  | oraAbsolute (w : Word)
  | oraAbsoluteX (w : Word)
  | oraAbsoluteY (w : Word)
  | oraIndexedIndirectX (b : Byte)
  | oraIndirectIndexedY (b : Byte)
  | eorImmediate (b : Byte)
  | eorZeroPage (b : Byte)
  | eorZeroPageX (b : Byte)
  | eorAbsolute (w : Word)
  | eorAbsoluteX (w : Word)
  | eorAbsoluteY (w : Word)
  | eorIndexedIndirectX (b : Byte)
  | eorIndirectIndexedY (b : Byte)
  | bitZeroPage (b : Byte)
  | bitAbsolute (w : Word)
  | cmpImmediate (b : Byte)
  | cmpZeroPage (b : Byte)
  | cmpZeroPageX (b : Byte)
  | cmpAbsolute (w : Word)
  | cmpAbsoluteX (w : Word)
  | cmpAbsoluteY (w : Word)
  | cmpIndexedIndirectX (b : Byte)
  | cmpIndirectIndexedY (b : Byte)
  | cpxImmediate (b : Byte)
  | cpxZeroPage (b : Byte)
  | cpxAbsolute (w : Word)
  | cpyImmediate (b : Byte)
  | cpyZeroPage (b : Byte)
  | cpyAbsolute (w : Word)
  | incZeroPage (b : Byte)
  | incZeroPageX (b : Byte)
  | incAbsolute (w : Word)
  | incAbsoluteX (w : Word)
  | decZeroPage (b : Byte)
  | decZeroPageX (b : Byte)
  | decAbsolute (w : Word)
  | decAbsoluteX (w : Word)
  | inx
  | iny
  | dex
  | dey
  | aslZeroPage (b : Byte)
  | aslZeroPageX (b : Byte)
  | aslAbsolute (w : Word)
  | aslAbsoluteX (w : Word)
  | aslAccumulator
  | lsrZeroPage (b : Byte)
  | lsrZeroPageX (b : Byte)
  | lsrAbsolute (w : Word)
  | lsrAbsoluteX (w : Word)
  | lsrAccumulator
  | rolZeroPage (b : Byte)
  | rolZeroPageX (b : Byte)
  | rolAbsolute (w : Word)
  | rolAbsoluteX (w : Word)
  | rolAccumulator
  | rorZeroPage (b : Byte)
  | rorZeroPageX (b : Byte)
  | rorAbsolute (w : Word)
  | rorAbsoluteX (w : Word)
  | rorAccumulator
  | jmpAbsolute (w : Word)
  | jmpIndirect (w : Word)
  | jsr (w : Word)
  | rts
  | bcc (b : Byte)
  | bcs (b : Byte)
  | beq (b : Byte)
  | bne (b : Byte)
  | bmi (b : Byte)
  | bpl (b : Byte)
  | bvc (b : Byte)
  | bvs (b : Byte)
  | pha
  | pla
  | php
  | plp
  | clc
  | sec
  | cld
  | sed
  | cli
  | sei
  | clv
  | nop
  | brk
  | rti
  /-- The invalid entry `???`, tagged with its slot's own opcode value (R75, R78). -/
  | invalid (op : Byte)
  deriving DecidableEq, Repr

/-- The addressing mode of an instruction's catalogue entry (R76); the invalid entry has none. -/
def Instr.mode : Instr → Option Mode
  | .ldaImmediate _ => some .immediate
  | .ldaZeroPage _ => some .zeroPage
  | .ldaZeroPageX _ => some .zeroPageX
  | .ldaAbsolute _ => some .absolute
  | .ldaAbsoluteX _ => some .absoluteX
  | .ldaAbsoluteY _ => some .absoluteY
  | .ldaIndexedIndirectX _ => some .indexedIndirectX
  | .ldaIndirectIndexedY _ => some .indirectIndexedY
  | .ldxImmediate _ => some .immediate
  | .ldxZeroPage _ => some .zeroPage
  | .ldxZeroPageY _ => some .zeroPageY
  | .ldxAbsolute _ => some .absolute
  | .ldxAbsoluteY _ => some .absoluteY
  | .ldyImmediate _ => some .immediate
  | .ldyZeroPage _ => some .zeroPage
  | .ldyZeroPageX _ => some .zeroPageX
  | .ldyAbsolute _ => some .absolute
  | .ldyAbsoluteX _ => some .absoluteX
  | .staZeroPage _ => some .zeroPage
  | .staZeroPageX _ => some .zeroPageX
  | .staAbsolute _ => some .absolute
  | .staAbsoluteX _ => some .absoluteX
  | .staAbsoluteY _ => some .absoluteY
  | .staIndexedIndirectX _ => some .indexedIndirectX
  | .staIndirectIndexedY _ => some .indirectIndexedY
  | .stxZeroPage _ => some .zeroPage
  | .stxZeroPageY _ => some .zeroPageY
  | .stxAbsolute _ => some .absolute
  | .styZeroPage _ => some .zeroPage
  | .styZeroPageX _ => some .zeroPageX
  | .styAbsolute _ => some .absolute
  | .tax => some .single
  | .tay => some .single
  | .txa => some .single
  | .tya => some .single
  | .tsx => some .single
  | .txs => some .single
  | .adcImmediate _ => some .immediate
  | .adcZeroPage _ => some .zeroPage
  | .adcZeroPageX _ => some .zeroPageX
  | .adcAbsolute _ => some .absolute
  | .adcAbsoluteX _ => some .absoluteX
  | .adcAbsoluteY _ => some .absoluteY
  | .adcIndexedIndirectX _ => some .indexedIndirectX
  | .adcIndirectIndexedY _ => some .indirectIndexedY
  | .sbcImmediate _ => some .immediate
  | .sbcZeroPage _ => some .zeroPage
  | .sbcZeroPageX _ => some .zeroPageX
  | .sbcAbsolute _ => some .absolute
  | .sbcAbsoluteX _ => some .absoluteX
  | .sbcAbsoluteY _ => some .absoluteY
  | .sbcIndexedIndirectX _ => some .indexedIndirectX
  | .sbcIndirectIndexedY _ => some .indirectIndexedY
  | .andImmediate _ => some .immediate
  | .andZeroPage _ => some .zeroPage
  | .andZeroPageX _ => some .zeroPageX
  | .andAbsolute _ => some .absolute
  | .andAbsoluteX _ => some .absoluteX
  | .andAbsoluteY _ => some .absoluteY
  | .andIndexedIndirectX _ => some .indexedIndirectX
  | .andIndirectIndexedY _ => some .indirectIndexedY
  | .oraImmediate _ => some .immediate
  | .oraZeroPage _ => some .zeroPage
  | .oraZeroPageX _ => some .zeroPageX
  | .oraAbsolute _ => some .absolute
  | .oraAbsoluteX _ => some .absoluteX
  | .oraAbsoluteY _ => some .absoluteY
  | .oraIndexedIndirectX _ => some .indexedIndirectX
  | .oraIndirectIndexedY _ => some .indirectIndexedY
  | .eorImmediate _ => some .immediate
  | .eorZeroPage _ => some .zeroPage
  | .eorZeroPageX _ => some .zeroPageX
  | .eorAbsolute _ => some .absolute
  | .eorAbsoluteX _ => some .absoluteX
  | .eorAbsoluteY _ => some .absoluteY
  | .eorIndexedIndirectX _ => some .indexedIndirectX
  | .eorIndirectIndexedY _ => some .indirectIndexedY
  | .bitZeroPage _ => some .zeroPage
  | .bitAbsolute _ => some .absolute
  | .cmpImmediate _ => some .immediate
  | .cmpZeroPage _ => some .zeroPage
  | .cmpZeroPageX _ => some .zeroPageX
  | .cmpAbsolute _ => some .absolute
  | .cmpAbsoluteX _ => some .absoluteX
  | .cmpAbsoluteY _ => some .absoluteY
  | .cmpIndexedIndirectX _ => some .indexedIndirectX
  | .cmpIndirectIndexedY _ => some .indirectIndexedY
  | .cpxImmediate _ => some .immediate
  | .cpxZeroPage _ => some .zeroPage
  | .cpxAbsolute _ => some .absolute
  | .cpyImmediate _ => some .immediate
  | .cpyZeroPage _ => some .zeroPage
  | .cpyAbsolute _ => some .absolute
  | .incZeroPage _ => some .zeroPage
  | .incZeroPageX _ => some .zeroPageX
  | .incAbsolute _ => some .absolute
  | .incAbsoluteX _ => some .absoluteX
  | .decZeroPage _ => some .zeroPage
  | .decZeroPageX _ => some .zeroPageX
  | .decAbsolute _ => some .absolute
  | .decAbsoluteX _ => some .absoluteX
  | .inx => some .single
  | .iny => some .single
  | .dex => some .single
  | .dey => some .single
  | .aslZeroPage _ => some .zeroPage
  | .aslZeroPageX _ => some .zeroPageX
  | .aslAbsolute _ => some .absolute
  | .aslAbsoluteX _ => some .absoluteX
  | .aslAccumulator => some .single
  | .lsrZeroPage _ => some .zeroPage
  | .lsrZeroPageX _ => some .zeroPageX
  | .lsrAbsolute _ => some .absolute
  | .lsrAbsoluteX _ => some .absoluteX
  | .lsrAccumulator => some .single
  | .rolZeroPage _ => some .zeroPage
  | .rolZeroPageX _ => some .zeroPageX
  | .rolAbsolute _ => some .absolute
  | .rolAbsoluteX _ => some .absoluteX
  | .rolAccumulator => some .single
  | .rorZeroPage _ => some .zeroPage
  | .rorZeroPageX _ => some .zeroPageX
  | .rorAbsolute _ => some .absolute
  | .rorAbsoluteX _ => some .absoluteX
  | .rorAccumulator => some .single
  | .jmpAbsolute _ => some .absolute
  | .jmpIndirect _ => some .indirect
  | .jsr _ => some .absolute
  | .rts => some .single
  | .bcc _ => some .relative
  | .bcs _ => some .relative
  | .beq _ => some .relative
  | .bne _ => some .relative
  | .bmi _ => some .relative
  | .bpl _ => some .relative
  | .bvc _ => some .relative
  | .bvs _ => some .relative
  | .pha => some .single
  | .pla => some .single
  | .php => some .single
  | .plp => some .single
  | .clc => some .single
  | .sec => some .single
  | .cld => some .single
  | .sed => some .single
  | .cli => some .single
  | .sei => some .single
  | .clv => some .single
  | .nop => some .single
  | .brk => some .single
  | .rti => some .single
  | .invalid _ => none

/-- The mnemonic name of an instruction's catalogue entry (R71, R76); the invalid entry's is `???` (R78). -/
def Instr.mnemonic : Instr → String
  | .ldaImmediate _ => "LDA"
  | .ldaZeroPage _ => "LDA"
  | .ldaZeroPageX _ => "LDA"
  | .ldaAbsolute _ => "LDA"
  | .ldaAbsoluteX _ => "LDA"
  | .ldaAbsoluteY _ => "LDA"
  | .ldaIndexedIndirectX _ => "LDA"
  | .ldaIndirectIndexedY _ => "LDA"
  | .ldxImmediate _ => "LDX"
  | .ldxZeroPage _ => "LDX"
  | .ldxZeroPageY _ => "LDX"
  | .ldxAbsolute _ => "LDX"
  | .ldxAbsoluteY _ => "LDX"
  | .ldyImmediate _ => "LDY"
  | .ldyZeroPage _ => "LDY"
  | .ldyZeroPageX _ => "LDY"
  | .ldyAbsolute _ => "LDY"
  | .ldyAbsoluteX _ => "LDY"
  | .staZeroPage _ => "STA"
  | .staZeroPageX _ => "STA"
  | .staAbsolute _ => "STA"
  | .staAbsoluteX _ => "STA"
  | .staAbsoluteY _ => "STA"
  | .staIndexedIndirectX _ => "STA"
  | .staIndirectIndexedY _ => "STA"
  | .stxZeroPage _ => "STX"
  | .stxZeroPageY _ => "STX"
  | .stxAbsolute _ => "STX"
  | .styZeroPage _ => "STY"
  | .styZeroPageX _ => "STY"
  | .styAbsolute _ => "STY"
  | .tax => "TAX"
  | .tay => "TAY"
  | .txa => "TXA"
  | .tya => "TYA"
  | .tsx => "TSX"
  | .txs => "TXS"
  | .adcImmediate _ => "ADC"
  | .adcZeroPage _ => "ADC"
  | .adcZeroPageX _ => "ADC"
  | .adcAbsolute _ => "ADC"
  | .adcAbsoluteX _ => "ADC"
  | .adcAbsoluteY _ => "ADC"
  | .adcIndexedIndirectX _ => "ADC"
  | .adcIndirectIndexedY _ => "ADC"
  | .sbcImmediate _ => "SBC"
  | .sbcZeroPage _ => "SBC"
  | .sbcZeroPageX _ => "SBC"
  | .sbcAbsolute _ => "SBC"
  | .sbcAbsoluteX _ => "SBC"
  | .sbcAbsoluteY _ => "SBC"
  | .sbcIndexedIndirectX _ => "SBC"
  | .sbcIndirectIndexedY _ => "SBC"
  | .andImmediate _ => "AND"
  | .andZeroPage _ => "AND"
  | .andZeroPageX _ => "AND"
  | .andAbsolute _ => "AND"
  | .andAbsoluteX _ => "AND"
  | .andAbsoluteY _ => "AND"
  | .andIndexedIndirectX _ => "AND"
  | .andIndirectIndexedY _ => "AND"
  | .oraImmediate _ => "ORA"
  | .oraZeroPage _ => "ORA"
  | .oraZeroPageX _ => "ORA"
  | .oraAbsolute _ => "ORA"
  | .oraAbsoluteX _ => "ORA"
  | .oraAbsoluteY _ => "ORA"
  | .oraIndexedIndirectX _ => "ORA"
  | .oraIndirectIndexedY _ => "ORA"
  | .eorImmediate _ => "EOR"
  | .eorZeroPage _ => "EOR"
  | .eorZeroPageX _ => "EOR"
  | .eorAbsolute _ => "EOR"
  | .eorAbsoluteX _ => "EOR"
  | .eorAbsoluteY _ => "EOR"
  | .eorIndexedIndirectX _ => "EOR"
  | .eorIndirectIndexedY _ => "EOR"
  | .bitZeroPage _ => "BIT"
  | .bitAbsolute _ => "BIT"
  | .cmpImmediate _ => "CMP"
  | .cmpZeroPage _ => "CMP"
  | .cmpZeroPageX _ => "CMP"
  | .cmpAbsolute _ => "CMP"
  | .cmpAbsoluteX _ => "CMP"
  | .cmpAbsoluteY _ => "CMP"
  | .cmpIndexedIndirectX _ => "CMP"
  | .cmpIndirectIndexedY _ => "CMP"
  | .cpxImmediate _ => "CPX"
  | .cpxZeroPage _ => "CPX"
  | .cpxAbsolute _ => "CPX"
  | .cpyImmediate _ => "CPY"
  | .cpyZeroPage _ => "CPY"
  | .cpyAbsolute _ => "CPY"
  | .incZeroPage _ => "INC"
  | .incZeroPageX _ => "INC"
  | .incAbsolute _ => "INC"
  | .incAbsoluteX _ => "INC"
  | .decZeroPage _ => "DEC"
  | .decZeroPageX _ => "DEC"
  | .decAbsolute _ => "DEC"
  | .decAbsoluteX _ => "DEC"
  | .inx => "INX"
  | .iny => "INY"
  | .dex => "DEX"
  | .dey => "DEY"
  | .aslZeroPage _ => "ASL"
  | .aslZeroPageX _ => "ASL"
  | .aslAbsolute _ => "ASL"
  | .aslAbsoluteX _ => "ASL"
  | .aslAccumulator => "ASL"
  | .lsrZeroPage _ => "LSR"
  | .lsrZeroPageX _ => "LSR"
  | .lsrAbsolute _ => "LSR"
  | .lsrAbsoluteX _ => "LSR"
  | .lsrAccumulator => "LSR"
  | .rolZeroPage _ => "ROL"
  | .rolZeroPageX _ => "ROL"
  | .rolAbsolute _ => "ROL"
  | .rolAbsoluteX _ => "ROL"
  | .rolAccumulator => "ROL"
  | .rorZeroPage _ => "ROR"
  | .rorZeroPageX _ => "ROR"
  | .rorAbsolute _ => "ROR"
  | .rorAbsoluteX _ => "ROR"
  | .rorAccumulator => "ROR"
  | .jmpAbsolute _ => "JMP"
  | .jmpIndirect _ => "JMP"
  | .jsr _ => "JSR"
  | .rts => "RTS"
  | .bcc _ => "BCC"
  | .bcs _ => "BCS"
  | .beq _ => "BEQ"
  | .bne _ => "BNE"
  | .bmi _ => "BMI"
  | .bpl _ => "BPL"
  | .bvc _ => "BVC"
  | .bvs _ => "BVS"
  | .pha => "PHA"
  | .pla => "PLA"
  | .php => "PHP"
  | .plp => "PLP"
  | .clc => "CLC"
  | .sec => "SEC"
  | .cld => "CLD"
  | .sed => "SED"
  | .cli => "CLI"
  | .sei => "SEI"
  | .clv => "CLV"
  | .nop => "NOP"
  | .brk => "BRK"
  | .rti => "RTI"
  | .invalid _ => "???"

/-- The size of an instruction in bytes: its mode's, and 1 for the invalid entry (R72, R74). -/
def Instr.size (i : Instr) : Nat := (i.mode.map Mode.size).getD 1

end Sys2Proof
end

