-- ==== Sys2Proof/WellFormed.lean ====
section
/-! DEFINITION. Which instructions are well formed: every operand byte is legal in every mode
(30_encoding.md R80), so the one check is that the invalid entry is tagged with the opcode of a slot
that holds it (R75, R78). -/

namespace Sys2Proof

/-- An instruction is well formed unless it is an invalid entry whose tag is a populated opcode. -/
def Instr.wellFormed : Instr → Bool
  | .invalid op => !Config.populated op
  | _ => true

end Sys2Proof
end

