-- ==== Sys2Proof/Decode.lean ====
section
/-! DEFINITION. The decoder: the 256-slot catalogue as the 16 by 16 matrix of 30_encoding.md R77, a total
decoder of byte lists that rejects by name (R74, R75), the encoder written from the mnemonic table R76,
and the host's `decodeTableWord`. -/

namespace Sys2Proof

/-- What a catalogue slot says of the operand bytes that follow the opcode (R70, formats F1, F2, F3). -/
inductive Entry where
  /-- Format F1, size 1. -/
  | single (i : Instr)
  /-- Format F2, size 2: one operand byte. -/
  | byteOperand (f : Byte → Instr)
  /-- Format F3, size 3: a 16-bit operand, low byte first. -/
  | wordOperand (f : Word → Instr)

/-- The size field of a slot's entry (R71: the whole instruction, opcode included). -/
def Entry.size : Entry → Nat
  | .single _ => 1
  | .byteOperand _ => 2
  | .wordOperand _ => 3

/-- A 16-bit operand from its bytes: `b2 * 256 + b1` (R73). -/
def operandWord (lo hi : Byte) : Word := hi ++ lo

/-- The bytes of a 16-bit operand, low byte first (R70, R73). -/
def operandBytes (w : Word) : List Byte := [w.setWidth 8, (w >>> 8).setWidth 8]

/-- Row 0x of the opcode matrix (R77). -/
def row0 : List (Byte × Entry) :=
  [(0x00#8, .single .brk),
   (0x01#8, .byteOperand .oraIndexedIndirectX),
   (0x05#8, .byteOperand .oraZeroPage),
   (0x06#8, .byteOperand .aslZeroPage),
   (0x08#8, .single .php),
   (0x09#8, .byteOperand .oraImmediate),
   (0x0A#8, .single .aslAccumulator),
   (0x0D#8, .wordOperand .oraAbsolute),
   (0x0E#8, .wordOperand .aslAbsolute)]

/-- Row 1x of the opcode matrix (R77). -/
def row1 : List (Byte × Entry) :=
  [(0x10#8, .byteOperand .bpl),
   (0x11#8, .byteOperand .oraIndirectIndexedY),
   (0x15#8, .byteOperand .oraZeroPageX),
   (0x16#8, .byteOperand .aslZeroPageX),
   (0x18#8, .single .clc),
   (0x19#8, .wordOperand .oraAbsoluteY),
   (0x1D#8, .wordOperand .oraAbsoluteX),
   (0x1E#8, .wordOperand .aslAbsoluteX)]

/-- Row 2x of the opcode matrix (R77). -/
def row2 : List (Byte × Entry) :=
  [(0x20#8, .wordOperand .jsr),
   (0x21#8, .byteOperand .andIndexedIndirectX),
   (0x24#8, .byteOperand .bitZeroPage),
   (0x25#8, .byteOperand .andZeroPage),
   (0x26#8, .byteOperand .rolZeroPage),
   (0x28#8, .single .plp),
   (0x29#8, .byteOperand .andImmediate),
   (0x2A#8, .single .rolAccumulator),
   (0x2C#8, .wordOperand .bitAbsolute),
   (0x2D#8, .wordOperand .andAbsolute),
   (0x2E#8, .wordOperand .rolAbsolute)]

/-- Row 3x of the opcode matrix (R77). -/
def row3 : List (Byte × Entry) :=
  [(0x30#8, .byteOperand .bmi),
   (0x31#8, .byteOperand .andIndirectIndexedY),
   (0x35#8, .byteOperand .andZeroPageX),
   (0x36#8, .byteOperand .rolZeroPageX),
   (0x38#8, .single .sec),
   (0x39#8, .wordOperand .andAbsoluteY),
   (0x3D#8, .wordOperand .andAbsoluteX),
   (0x3E#8, .wordOperand .rolAbsoluteX)]

/-- Row 4x of the opcode matrix (R77). -/
def row4 : List (Byte × Entry) :=
  [(0x40#8, .single .rti),
   (0x41#8, .byteOperand .eorIndexedIndirectX),
   (0x45#8, .byteOperand .eorZeroPage),
   (0x46#8, .byteOperand .lsrZeroPage),
   (0x48#8, .single .pha),
   (0x49#8, .byteOperand .eorImmediate),
   (0x4A#8, .single .lsrAccumulator),
   (0x4C#8, .wordOperand .jmpAbsolute),
   (0x4D#8, .wordOperand .eorAbsolute),
   (0x4E#8, .wordOperand .lsrAbsolute)]

/-- Row 5x of the opcode matrix (R77). -/
def row5 : List (Byte × Entry) :=
  [(0x50#8, .byteOperand .bvc),
   (0x51#8, .byteOperand .eorIndirectIndexedY),
   (0x55#8, .byteOperand .eorZeroPageX),
   (0x56#8, .byteOperand .lsrZeroPageX),
   (0x58#8, .single .cli),
   (0x59#8, .wordOperand .eorAbsoluteY),
   (0x5D#8, .wordOperand .eorAbsoluteX),
   (0x5E#8, .wordOperand .lsrAbsoluteX)]

/-- Row 6x of the opcode matrix (R77). -/
def row6 : List (Byte × Entry) :=
  [(0x60#8, .single .rts),
   (0x61#8, .byteOperand .adcIndexedIndirectX),
   (0x65#8, .byteOperand .adcZeroPage),
   (0x66#8, .byteOperand .rorZeroPage),
   (0x68#8, .single .pla),
   (0x69#8, .byteOperand .adcImmediate),
   (0x6A#8, .single .rorAccumulator),
   (0x6C#8, .wordOperand .jmpIndirect),
   (0x6D#8, .wordOperand .adcAbsolute),
   (0x6E#8, .wordOperand .rorAbsolute)]

/-- Row 7x of the opcode matrix (R77). -/
def row7 : List (Byte × Entry) :=
  [(0x70#8, .byteOperand .bvs),
   (0x71#8, .byteOperand .adcIndirectIndexedY),
   (0x75#8, .byteOperand .adcZeroPageX),
   (0x76#8, .byteOperand .rorZeroPageX),
   (0x78#8, .single .sei),
   (0x79#8, .wordOperand .adcAbsoluteY),
   (0x7D#8, .wordOperand .adcAbsoluteX),
   (0x7E#8, .wordOperand .rorAbsoluteX)]

/-- Row 8x of the opcode matrix (R77). -/
def row8 : List (Byte × Entry) :=
  [(0x81#8, .byteOperand .staIndexedIndirectX),
   (0x84#8, .byteOperand .styZeroPage),
   (0x85#8, .byteOperand .staZeroPage),
   (0x86#8, .byteOperand .stxZeroPage),
   (0x88#8, .single .dey),
   (0x8A#8, .single .txa),
   (0x8C#8, .wordOperand .styAbsolute),
   (0x8D#8, .wordOperand .staAbsolute),
   (0x8E#8, .wordOperand .stxAbsolute)]

/-- Row 9x of the opcode matrix (R77). -/
def row9 : List (Byte × Entry) :=
  [(0x90#8, .byteOperand .bcc),
   (0x91#8, .byteOperand .staIndirectIndexedY),
   (0x94#8, .byteOperand .styZeroPageX),
   (0x95#8, .byteOperand .staZeroPageX),
   (0x96#8, .byteOperand .stxZeroPageY),
   (0x98#8, .single .tya),
   (0x99#8, .wordOperand .staAbsoluteY),
   (0x9A#8, .single .txs),
   (0x9D#8, .wordOperand .staAbsoluteX)]

/-- Row Ax of the opcode matrix (R77). -/
def rowA : List (Byte × Entry) :=
  [(0xA0#8, .byteOperand .ldyImmediate),
   (0xA1#8, .byteOperand .ldaIndexedIndirectX),
   (0xA2#8, .byteOperand .ldxImmediate),
   (0xA4#8, .byteOperand .ldyZeroPage),
   (0xA5#8, .byteOperand .ldaZeroPage),
   (0xA6#8, .byteOperand .ldxZeroPage),
   (0xA8#8, .single .tay),
   (0xA9#8, .byteOperand .ldaImmediate),
   (0xAA#8, .single .tax),
   (0xAC#8, .wordOperand .ldyAbsolute),
   (0xAD#8, .wordOperand .ldaAbsolute),
   (0xAE#8, .wordOperand .ldxAbsolute)]

/-- Row Bx of the opcode matrix (R77). -/
def rowB : List (Byte × Entry) :=
  [(0xB0#8, .byteOperand .bcs),
   (0xB1#8, .byteOperand .ldaIndirectIndexedY),
   (0xB4#8, .byteOperand .ldyZeroPageX),
   (0xB5#8, .byteOperand .ldaZeroPageX),
   (0xB6#8, .byteOperand .ldxZeroPageY),
   (0xB8#8, .single .clv),
   (0xB9#8, .wordOperand .ldaAbsoluteY),
   (0xBA#8, .single .tsx),
   (0xBC#8, .wordOperand .ldyAbsoluteX),
   (0xBD#8, .wordOperand .ldaAbsoluteX),
   (0xBE#8, .wordOperand .ldxAbsoluteY)]

/-- Row Cx of the opcode matrix (R77). -/
def rowC : List (Byte × Entry) :=
  [(0xC0#8, .byteOperand .cpyImmediate),
   (0xC1#8, .byteOperand .cmpIndexedIndirectX),
   (0xC4#8, .byteOperand .cpyZeroPage),
   (0xC5#8, .byteOperand .cmpZeroPage),
   (0xC6#8, .byteOperand .decZeroPage),
   (0xC8#8, .single .iny),
   (0xC9#8, .byteOperand .cmpImmediate),
   (0xCA#8, .single .dex),
   (0xCC#8, .wordOperand .cpyAbsolute),
   (0xCD#8, .wordOperand .cmpAbsolute),
   (0xCE#8, .wordOperand .decAbsolute)]

/-- Row Dx of the opcode matrix (R77). -/
def rowD : List (Byte × Entry) :=
  [(0xD0#8, .byteOperand .bne),
   (0xD1#8, .byteOperand .cmpIndirectIndexedY),
   (0xD5#8, .byteOperand .cmpZeroPageX),
   (0xD6#8, .byteOperand .decZeroPageX),
   (0xD8#8, .single .cld),
   (0xD9#8, .wordOperand .cmpAbsoluteY),
   (0xDD#8, .wordOperand .cmpAbsoluteX),
   (0xDE#8, .wordOperand .decAbsoluteX)]

/-- Row Ex of the opcode matrix (R77). -/
def rowE : List (Byte × Entry) :=
  [(0xE0#8, .byteOperand .cpxImmediate),
   (0xE1#8, .byteOperand .sbcIndexedIndirectX),
   (0xE4#8, .byteOperand .cpxZeroPage),
   (0xE5#8, .byteOperand .sbcZeroPage),
   (0xE6#8, .byteOperand .incZeroPage),
   (0xE8#8, .single .inx),
   (0xE9#8, .byteOperand .sbcImmediate),
   (0xEA#8, .single .nop),
   (0xEC#8, .wordOperand .cpxAbsolute),
   (0xED#8, .wordOperand .sbcAbsolute),
   (0xEE#8, .wordOperand .incAbsolute)]

/-- Row Fx of the opcode matrix (R77). -/
def rowF : List (Byte × Entry) :=
  [(0xF0#8, .byteOperand .beq),
   (0xF1#8, .byteOperand .sbcIndirectIndexedY),
   (0xF5#8, .byteOperand .sbcZeroPageX),
   (0xF6#8, .byteOperand .incZeroPageX),
   (0xF8#8, .single .sed),
   (0xF9#8, .wordOperand .sbcAbsoluteY),
   (0xFD#8, .wordOperand .sbcAbsoluteX),
   (0xFE#8, .wordOperand .incAbsoluteX)]

/-- The opcode matrix, one list of populated slots for each high nibble (R77). -/
def opcodeRow (hi : Nat) : List (Byte × Entry) :=
  match hi with
  | 0 => row0
  | 1 => row1
  | 2 => row2
  | 3 => row3
  | 4 => row4
  | 5 => row5
  | 6 => row6
  | 7 => row7
  | 8 => row8
  | 9 => row9
  | 10 => rowA
  | 11 => rowB
  | 12 => rowC
  | 13 => rowD
  | 14 => rowE
  | _ => rowF

/-- The catalogue: the entry of every opcode byte. Each slot is first the invalid entry tagged with its
own opcode, then overwritten for every populated opcode (R75); the parameter POPULATED decides which
slots are populated (R79). -/
def catalogue (op : Byte) : Entry :=
  if Config.populated op then
    match (opcodeRow (op.toNat / 16)).find? (fun r => r.1 == op) with
    | some r => r.2
    | none => .single (.invalid op)
  else .single (.invalid op)

/-- Why a list of bytes holds no whole instruction. -/
inductive DecodeError where
  /-- There is no opcode byte. Safe: memory always gives the machine one. -/
  | noBytes
  /-- The list ends before the operand bytes of opcode `op`. Safe: as above. -/
  | truncated (op : Byte)
  deriving DecidableEq, Repr

/-- Decode the first instruction of a list of bytes and answer it with the bytes after it: read byte 0,
find its slot, take as many operand bytes as the slot's size says (R74, R81). -/
def decode : List Byte → Except DecodeError (Instr × List Byte)
  | [] => .error .noBytes
  | op :: rest =>
    match catalogue op with
    | .single i => .ok (i, rest)
    | .byteOperand f =>
      match rest with
      | b :: r => .ok (f b, r)
      | [] => .error (.truncated op)
    | .wordOperand f =>
      match rest with
      | lo :: hi :: r => .ok (f (operandWord lo hi), r)
      | _ => .error (.truncated op)

/-- The bytes of an instruction: opcode from the mnemonic table R76, then the operand bytes (R70). -/
def encode : Instr → List Byte
  | .ldaImmediate b => [0xA9, b]
  | .ldaZeroPage b => [0xA5, b]
  | .ldaZeroPageX b => [0xB5, b]
  | .ldaAbsolute w => 0xAD :: operandBytes w
  | .ldaAbsoluteX w => 0xBD :: operandBytes w
  | .ldaAbsoluteY w => 0xB9 :: operandBytes w
  | .ldaIndexedIndirectX b => [0xA1, b]
  | .ldaIndirectIndexedY b => [0xB1, b]
  | .ldxImmediate b => [0xA2, b]
  | .ldxZeroPage b => [0xA6, b]
  | .ldxZeroPageY b => [0xB6, b]
  | .ldxAbsolute w => 0xAE :: operandBytes w
  | .ldxAbsoluteY w => 0xBE :: operandBytes w
  | .ldyImmediate b => [0xA0, b]
  | .ldyZeroPage b => [0xA4, b]
  | .ldyZeroPageX b => [0xB4, b]
  | .ldyAbsolute w => 0xAC :: operandBytes w
  | .ldyAbsoluteX w => 0xBC :: operandBytes w
  | .staZeroPage b => [0x85, b]
  | .staZeroPageX b => [0x95, b]
  | .staAbsolute w => 0x8D :: operandBytes w
  | .staAbsoluteX w => 0x9D :: operandBytes w
  | .staAbsoluteY w => 0x99 :: operandBytes w
  | .staIndexedIndirectX b => [0x81, b]
  | .staIndirectIndexedY b => [0x91, b]
  | .stxZeroPage b => [0x86, b]
  | .stxZeroPageY b => [0x96, b]
  | .stxAbsolute w => 0x8E :: operandBytes w
  | .styZeroPage b => [0x84, b]
  | .styZeroPageX b => [0x94, b]
  | .styAbsolute w => 0x8C :: operandBytes w
  | .tax => [0xAA]
  | .tay => [0xA8]
  | .txa => [0x8A]
  | .tya => [0x98]
  | .tsx => [0xBA]
  | .txs => [0x9A]
  | .adcImmediate b => [0x69, b]
  | .adcZeroPage b => [0x65, b]
  | .adcZeroPageX b => [0x75, b]
  | .adcAbsolute w => 0x6D :: operandBytes w
  | .adcAbsoluteX w => 0x7D :: operandBytes w
  | .adcAbsoluteY w => 0x79 :: operandBytes w
  | .adcIndexedIndirectX b => [0x61, b]
  | .adcIndirectIndexedY b => [0x71, b]
  | .sbcImmediate b => [0xE9, b]
  | .sbcZeroPage b => [0xE5, b]
  | .sbcZeroPageX b => [0xF5, b]
  | .sbcAbsolute w => 0xED :: operandBytes w
  | .sbcAbsoluteX w => 0xFD :: operandBytes w
  | .sbcAbsoluteY w => 0xF9 :: operandBytes w
  | .sbcIndexedIndirectX b => [0xE1, b]
  | .sbcIndirectIndexedY b => [0xF1, b]
  | .andImmediate b => [0x29, b]
  | .andZeroPage b => [0x25, b]
  | .andZeroPageX b => [0x35, b]
  | .andAbsolute w => 0x2D :: operandBytes w
  | .andAbsoluteX w => 0x3D :: operandBytes w
  | .andAbsoluteY w => 0x39 :: operandBytes w
  | .andIndexedIndirectX b => [0x21, b]
  | .andIndirectIndexedY b => [0x31, b]
  | .oraImmediate b => [0x09, b]
  | .oraZeroPage b => [0x05, b]
  | .oraZeroPageX b => [0x15, b]
  | .oraAbsolute w => 0x0D :: operandBytes w
  | .oraAbsoluteX w => 0x1D :: operandBytes w
  | .oraAbsoluteY w => 0x19 :: operandBytes w
  | .oraIndexedIndirectX b => [0x01, b]
  | .oraIndirectIndexedY b => [0x11, b]
  | .eorImmediate b => [0x49, b]
  | .eorZeroPage b => [0x45, b]
  | .eorZeroPageX b => [0x55, b]
  | .eorAbsolute w => 0x4D :: operandBytes w
  | .eorAbsoluteX w => 0x5D :: operandBytes w
  | .eorAbsoluteY w => 0x59 :: operandBytes w
  | .eorIndexedIndirectX b => [0x41, b]
  | .eorIndirectIndexedY b => [0x51, b]
  | .bitZeroPage b => [0x24, b]
  | .bitAbsolute w => 0x2C :: operandBytes w
  | .cmpImmediate b => [0xC9, b]
  | .cmpZeroPage b => [0xC5, b]
  | .cmpZeroPageX b => [0xD5, b]
  | .cmpAbsolute w => 0xCD :: operandBytes w
  | .cmpAbsoluteX w => 0xDD :: operandBytes w
  | .cmpAbsoluteY w => 0xD9 :: operandBytes w
  | .cmpIndexedIndirectX b => [0xC1, b]
  | .cmpIndirectIndexedY b => [0xD1, b]
  | .cpxImmediate b => [0xE0, b]
  | .cpxZeroPage b => [0xE4, b]
  | .cpxAbsolute w => 0xEC :: operandBytes w
  | .cpyImmediate b => [0xC0, b]
  | .cpyZeroPage b => [0xC4, b]
  | .cpyAbsolute w => 0xCC :: operandBytes w
  | .incZeroPage b => [0xE6, b]
  | .incZeroPageX b => [0xF6, b]
  | .incAbsolute w => 0xEE :: operandBytes w
  | .incAbsoluteX w => 0xFE :: operandBytes w
  | .decZeroPage b => [0xC6, b]
  | .decZeroPageX b => [0xD6, b]
  | .decAbsolute w => 0xCE :: operandBytes w
  | .decAbsoluteX w => 0xDE :: operandBytes w
  | .inx => [0xE8]
  | .iny => [0xC8]
  | .dex => [0xCA]
  | .dey => [0x88]
  | .aslZeroPage b => [0x06, b]
  | .aslZeroPageX b => [0x16, b]
  | .aslAbsolute w => 0x0E :: operandBytes w
  | .aslAbsoluteX w => 0x1E :: operandBytes w
  | .aslAccumulator => [0x0A]
  | .lsrZeroPage b => [0x46, b]
  | .lsrZeroPageX b => [0x56, b]
  | .lsrAbsolute w => 0x4E :: operandBytes w
  | .lsrAbsoluteX w => 0x5E :: operandBytes w
  | .lsrAccumulator => [0x4A]
  | .rolZeroPage b => [0x26, b]
  | .rolZeroPageX b => [0x36, b]
  | .rolAbsolute w => 0x2E :: operandBytes w
  | .rolAbsoluteX w => 0x3E :: operandBytes w
  | .rolAccumulator => [0x2A]
  | .rorZeroPage b => [0x66, b]
  | .rorZeroPageX b => [0x76, b]
  | .rorAbsolute w => 0x6E :: operandBytes w
  | .rorAbsoluteX w => 0x7E :: operandBytes w
  | .rorAccumulator => [0x6A]
  | .jmpAbsolute w => 0x4C :: operandBytes w
  | .jmpIndirect w => 0x6C :: operandBytes w
  | .jsr w => 0x20 :: operandBytes w
  | .rts => [0x60]
  | .bcc b => [0x90, b]
  | .bcs b => [0xB0, b]
  | .beq b => [0xF0, b]
  | .bne b => [0xD0, b]
  | .bmi b => [0x30, b]
  | .bpl b => [0x10, b]
  | .bvc b => [0x50, b]
  | .bvs b => [0x70, b]
  | .pha => [0x48]
  | .pla => [0x68]
  | .php => [0x08]
  | .plp => [0x28]
  | .clc => [0x18]
  | .sec => [0x38]
  | .cld => [0xD8]
  | .sed => [0xF8]
  | .cli => [0x58]
  | .sei => [0x78]
  | .clv => [0xB8]
  | .nop => [0xEA]
  | .brk => [0x00]
  | .rti => [0x40]
  | .invalid op => [op]

/-- The instruction the decoder reads from an instruction whose bits are `w`, numbered as
spec/opcode_table.json numbers them: byte 0 is bits 7..0, byte 1 bits 15..8, byte 2 bits 23..16, and
every bit from `nbits` up is 0. -/
def decodeTableWord (nbits w : Nat) : Option Instr :=
  let v := w % 2 ^ nbits
  match decode [BitVec.ofNat 8 v, BitVec.ofNat 8 (v / 256), BitVec.ofNat 8 (v / 65536)] with
  | .ok (i, _) => some i
  | .error _ => none

end Sys2Proof
end

