-- ==== Sys2Proof/Machine/Fetch.lean ====
section
/-! DEFINITION. Fetching an instruction (40_execution_and_addressing.md R100, R104, R105): the opcode byte
at PC, its catalogue entry, and as many operand bytes as the entry's size says. -/

namespace Sys2Proof.Machine

/-- FetchByte (R104): read at PC and advance PC by one, modulo 65536. -/
def fetchByte (s : State) : Byte × State :=
  let r := memRead s.pc s
  (r.1, { r.2 with pc := s.pc + 1 })

/-- FetchWord (R105): the low byte first. -/
def fetchWord (s : State) : Word × State :=
  let lo := fetchByte s
  let hi := fetchByte lo.2
  (operandWord lo.1 hi.1, hi.2)

/-- Fetch the operand bytes of a catalogue entry: every instruction consumes exactly `size - 1` of them
(10_state.md R31). -/
def fetchOperands (e : Entry) (s : State) : Instr × State :=
  match e with
  | .single i => (i, s)
  | .byteOperand f =>
    let b := fetchByte s
    (f b.1, b.2)
  | .wordOperand f =>
    let w := fetchWord s
    (f w.1, w.2)

/-- Fetch the next instruction: opcode byte, catalogue lookup, operand bytes (R100). The state answered
has PC past the whole instruction. -/
def fetch (s : State) : Instr × State :=
  let op := fetchByte s
  fetchOperands (catalogue op.1) op.2

/-- Put the bytes of an instruction word in memory from an address on, modulo 65536: byte 0 is bits 7..0
of `v`, byte 1 bits 15..8, byte 2 bits 23..16. Written directly, with no sink call (decision D22). -/
def placeWord (addr : Word) (v : Nat) (m : List Host.Cell) : List Host.Cell :=
  let m := Memory.set m addr.toNat (BitVec.ofNat 8 v)
  let m := Memory.set m (addr + 1).toNat (BitVec.ofNat 8 (v / 256))
  Memory.set m (addr + 2).toNat (BitVec.ofNat 8 (v / 65536))

end Sys2Proof.Machine
end

