-- ==== Sys2Proof/Machine/Step.lean ====
section
/-! DEFINITION. Execute-one, the step of the core (40_execution_and_addressing.md R100), and where a test
places an instruction. -/

namespace Sys2Proof.Machine

/-- Execute-one (R100): in Stopped or Halted no effect (decision D20), else fetch and perform one
instruction. -/
def step (s : State) : Host.Outcome State Fault Refusal :=
  if s.executing then exec (fetch s).1 (fetch s).2 else .next s

/-- `s` with the instruction whose bits are `w` stored at PC, where `step` fetches its next instruction,
and the core Running. From State.reset this stands for the host's Load and Run (log entry 6). -/
def State.withFetchWord (s : State) (nbits w : Nat) : State :=
  { s with
    mem := placeWord s.pc (w % 2 ^ nbits) s.mem
    runningState := true
    errorState := false }

end Sys2Proof.Machine
end

