-- ==== Sys2Proof/Machine/Commands.lean ====
section
/-! DEFINITION. What the host may do between two batches (70_reset_and_hazards.md R270 to R281,
40_execution_and_addressing.md R102, 60_exceptions.md R245): Reset, Run, Stop, Load and the batch tick.
They are no part of `step`. -/

namespace Sys2Proof.Machine

/-- `n` execute-one steps back to back (R102). -/
def runSteps : Nat → State → Host.Outcome State Fault Refusal
  | 0, s => .next s
  | n + 1, s =>
    match step s with
    | .next t => runSteps n t
    | .fault f => .fault f
    | .refused r => .refused r

/-- ExecuteBatch (R102): BATCH_SIZE steps; once a step has faulted the rest have no effect. -/
def executeBatch (s : State) : Host.Outcome State Fault Refusal := runSteps Config.batchSize s

/-- Reset (R270): every field to its reset value and one more log line. The parameter RNG_ADDR is not
state and stays; the draws already made are not made again (R42). -/
def resetCommand (s : State) : State :=
  { State.reset with rngAddr := s.rngAddr, draws := s.draws, log := s.log ++ [.reset] }

/-- Run (R278): a notice if already Running, a rejection if Halted, else Running. -/
def runCommand (s : State) : State :=
  if s.runningState then { s with log := s.log ++ [.runRedundant] }
  else if s.errorState then { s with log := s.log ++ [.runRejected] }
  else { s with runningState := true }

/-- Stop (R279): Halted stays Halted (decision D21), else Stopped. -/
def stopCommand (s : State) : State := if s.errorState then s else { s with runningState := false }

/-- The bytes of a program written from an address on, modulo 65536, with no sink call (R280, decision
D22). -/
def loadBytes : Word → List Byte → List Host.Cell → List Host.Cell
  | _, [], m => m
  | addr, b :: bs, m => loadBytes (addr + 1) bs (Memory.set m addr.toNat b)

/-- Load (R280): the bytes into memory, PC to the start. While Running it has no meaning and is refused
by name (93_implementation_defined.md U13). -/
def loadCommand (start : Word) (bytes : List Byte) (s : State) : Host.Outcome State Fault Refusal :=
  if s.runningState then .refused .loadWhileRunning
  else .next { s with mem := loadBytes start bytes s.mem, pc := start }

/-- The host's commands (60_exceptions.md R251; 70_reset_and_hazards.md R281). -/
inductive Command where
  | reset
  | run
  | stop
  | load (start : Word) (bytes : List Byte)
  /-- A failed compile (R280, LoadFailed): nothing changes. -/
  | loadFailed
  /-- The scheduler's batch callback (R102). -/
  | tick
  deriving DecidableEq, Repr

/-- What the core does at a command of the host (R245, R281). -/
def perform (c : Command) (s : State) : Host.Outcome State Fault Refusal :=
  match c with
  | .reset => .next (resetCommand s)
  | .run => .next (runCommand s)
  | .stop => .next (stopCommand s)
  | .load start bytes => loadCommand start bytes s
  | .loadFailed => .next s
  | .tick => executeBatch s

end Sys2Proof.Machine
end

