-- ==== Sys2Proof/Safety.lean ====
section
/-! DEFINITION. What counts as a legal state of the machine, and the terms the statements are written in:
the bits of P by number, the bytes of memory, binary coded decimal, the instruction forms of a family. -/

namespace Sys2Proof.Safety

open Sys2Proof Sys2Proof.Machine

/-! ## The invariant -/

/-- The legal states: the memory list is canonical, the run state is not (true, true) (10_state.md R25),
Halted exactly when a fault is recorded (60_exceptions.md R244, 70_reset_and_hazards.md R270), and every
recorded sink call lies in the display window (20_memory.md R45). -/
structure Legal (s : State) : Prop where
  memory : Memory.wf s.mem = true
  runState : ¬(s.runningState = true ∧ s.errorState = true)
  fault : s.errorState = s.lastFault.isSome
  window : ∀ c ∈ s.sink, 0xFC00 ≤ c.1.toNat

/-! ## Words the statements use -/

/-- N and Z of `q` describe the byte `v` (40_execution_and_addressing.md R121). -/
def NZOf (v q : Byte) : Prop := q.getLsbD 7 = v.getLsbD 7 ∧ q.getLsbD 1 = decide (v.toNat = 0)

/-- `q` agrees with `p` in every bit whose number is not listed. -/
def SameBitsBut (ks : List Nat) (p q : Byte) : Prop := ∀ k, k ∉ ks → q.getLsbD k = p.getLsbD k

/-- Every byte of memory reads in `t` as in `s`. -/
def SameMemory (s t : State) : Prop := ∀ a, Memory.get t.mem a = Memory.get s.mem a

/-- Every byte of memory outside the listed addresses reads in `t` as in `s`. -/
def SameMemoryBut (as : List Nat) (s t : State) : Prop := ∀ a, a ∉ as → Memory.get t.mem a = Memory.get s.mem a

/-- The display-sink trace after one store of `v` at `addr` (20_memory.md R45). -/
def sinkAfter (addr : Word) (v : Byte) (s : State) : List SinkCall :=
  if 0xFC00 ≤ addr.toNat then s.sink ++ [(addr, v)] else s.sink

/-- Carry as a number, bit 0 of P (10_state.md R17). -/
def carryIn (s : State) : Nat := (s.p.getLsbD 0).toNat

/-- Both nibbles are decimal digits. -/
def ValidBcd (b : Byte) : Prop := b.toNat / 16 ≤ 9 ∧ b.toNat % 16 ≤ 9

/-- The number a valid BCD byte stands for. -/
def dec (b : Byte) : Nat := 10 * (b.toNat / 16) + b.toNat % 16

/-- A digit of a decimal sum after its correction (40_execution_and_addressing.md R124): the sum of two
nibbles and a carry, by which 10 or more passes one to the next digit and leaves it plus 6 modulo 16. -/
def sumDigit (n : Nat) : Nat := if 10 ≤ n then (n + 6) % 16 else n

/-- A digit of a decimal difference after its correction (40_execution_and_addressing.md R125): a negative
difference borrows one from the next digit and leaves it minus 6 modulo 16. -/
def differenceDigit (n : Int) : Int := if n < 0 then (n - 6) % 16 else n

/-- The opcode byte of an instruction: the first byte of its encoding. -/
def opcodeOf (i : Instr) : Option Byte := (encode i).head?

/-- Push the bytes of a list in order. -/
def pushAll : List Byte → State → Res Unit
  | [], s => .ok () s
  | b :: bs, s => (push b s).andThen fun _ s1 => pushAll bs s1

/-- Pop `n` bytes, the first one popped first. -/
def popAll : Nat → State → Res (List Byte)
  | 0, s => .ok [] s
  | n + 1, s => (pop s).andThen fun b s1 => (popAll n s1).andThen fun bs s2 => .ok (b :: bs) s2

/-! ## Instruction forms: opcode, instruction, operand source (30_encoding.md R76) -/

/-- The forms of LDA (R140). -/
def ldaForms (b : Byte) (w : Word) : List (Byte × Instr × Source) :=
  [(0xA9, .ldaImmediate b, .immediate b),
   (0xA5, .ldaZeroPage b, .memory (.zeroPage b)),
   (0xB5, .ldaZeroPageX b, .memory (.zeroPageX b)),
   (0xAD, .ldaAbsolute w, .memory (.absolute w)),
   (0xBD, .ldaAbsoluteX w, .memory (.absoluteX w)),
   (0xB9, .ldaAbsoluteY w, .memory (.absoluteY w)),
   (0xA1, .ldaIndexedIndirectX b, .memory (.indexedIndirectX b)),
   (0xB1, .ldaIndirectIndexedY b, .memory (.indirectIndexedY b))]

/-- The forms of LDX (R141). -/
def ldxForms (b : Byte) (w : Word) : List (Byte × Instr × Source) :=
  [(0xA2, .ldxImmediate b, .immediate b),
   (0xA6, .ldxZeroPage b, .memory (.zeroPage b)),
   (0xB6, .ldxZeroPageY b, .memory (.zeroPageY b)),
   (0xAE, .ldxAbsolute w, .memory (.absolute w)),
   (0xBE, .ldxAbsoluteY w, .memory (.absoluteY w))]

/-- The forms of LDY (R142). -/
def ldyForms (b : Byte) (w : Word) : List (Byte × Instr × Source) :=
  [(0xA0, .ldyImmediate b, .immediate b),
   (0xA4, .ldyZeroPage b, .memory (.zeroPage b)),
   (0xB4, .ldyZeroPageX b, .memory (.zeroPageX b)),
   (0xAC, .ldyAbsolute w, .memory (.absolute w)),
   (0xBC, .ldyAbsoluteX w, .memory (.absoluteX w))]

/-- The forms of ADC (R160). -/
def adcForms (b : Byte) (w : Word) : List (Byte × Instr × Source) :=
  [(0x69, .adcImmediate b, .immediate b),
   (0x65, .adcZeroPage b, .memory (.zeroPage b)),
   (0x75, .adcZeroPageX b, .memory (.zeroPageX b)),
   (0x6D, .adcAbsolute w, .memory (.absolute w)),
   (0x7D, .adcAbsoluteX w, .memory (.absoluteX w)),
   (0x79, .adcAbsoluteY w, .memory (.absoluteY w)),
   (0x61, .adcIndexedIndirectX b, .memory (.indexedIndirectX b)),
   (0x71, .adcIndirectIndexedY b, .memory (.indirectIndexedY b))]

/-- The forms of SBC (R161). -/
def sbcForms (b : Byte) (w : Word) : List (Byte × Instr × Source) :=
  [(0xE9, .sbcImmediate b, .immediate b),
   (0xE5, .sbcZeroPage b, .memory (.zeroPage b)),
   (0xF5, .sbcZeroPageX b, .memory (.zeroPageX b)),
   (0xED, .sbcAbsolute w, .memory (.absolute w)),
   (0xFD, .sbcAbsoluteX w, .memory (.absoluteX w)),
   (0xF9, .sbcAbsoluteY w, .memory (.absoluteY w)),
   (0xE1, .sbcIndexedIndirectX b, .memory (.indexedIndirectX b)),
   (0xF1, .sbcIndirectIndexedY b, .memory (.indirectIndexedY b))]

/-- The forms of AND (R162). -/
def andForms (b : Byte) (w : Word) : List (Byte × Instr × Source) :=
  [(0x29, .andImmediate b, .immediate b),
   (0x25, .andZeroPage b, .memory (.zeroPage b)),
   (0x35, .andZeroPageX b, .memory (.zeroPageX b)),
   (0x2D, .andAbsolute w, .memory (.absolute w)),
   (0x3D, .andAbsoluteX w, .memory (.absoluteX w)),
   (0x39, .andAbsoluteY w, .memory (.absoluteY w)),
   (0x21, .andIndexedIndirectX b, .memory (.indexedIndirectX b)),
   (0x31, .andIndirectIndexedY b, .memory (.indirectIndexedY b))]

/-- The forms of ORA (R163). -/
def oraForms (b : Byte) (w : Word) : List (Byte × Instr × Source) :=
  [(0x09, .oraImmediate b, .immediate b),
   (0x05, .oraZeroPage b, .memory (.zeroPage b)),
   (0x15, .oraZeroPageX b, .memory (.zeroPageX b)),
   (0x0D, .oraAbsolute w, .memory (.absolute w)),
   (0x1D, .oraAbsoluteX w, .memory (.absoluteX w)),
   (0x19, .oraAbsoluteY w, .memory (.absoluteY w)),
   (0x01, .oraIndexedIndirectX b, .memory (.indexedIndirectX b)),
   (0x11, .oraIndirectIndexedY b, .memory (.indirectIndexedY b))]

/-- The forms of EOR (R164). -/
def eorForms (b : Byte) (w : Word) : List (Byte × Instr × Source) :=
  [(0x49, .eorImmediate b, .immediate b),
   (0x45, .eorZeroPage b, .memory (.zeroPage b)),
   (0x55, .eorZeroPageX b, .memory (.zeroPageX b)),
   (0x4D, .eorAbsolute w, .memory (.absolute w)),
   (0x5D, .eorAbsoluteX w, .memory (.absoluteX w)),
   (0x59, .eorAbsoluteY w, .memory (.absoluteY w)),
   (0x41, .eorIndexedIndirectX b, .memory (.indexedIndirectX b)),
   (0x51, .eorIndirectIndexedY b, .memory (.indirectIndexedY b))]

/-- The forms of BIT (R165). -/
def bitForms (b : Byte) (w : Word) : List (Byte × Instr × Source) :=
  [(0x24, .bitZeroPage b, .memory (.zeroPage b)),
   (0x2C, .bitAbsolute w, .memory (.absolute w))]

/-- The forms of CMP (R166). -/
def cmpForms (b : Byte) (w : Word) : List (Byte × Instr × Source) :=
  [(0xC9, .cmpImmediate b, .immediate b),
   (0xC5, .cmpZeroPage b, .memory (.zeroPage b)),
   (0xD5, .cmpZeroPageX b, .memory (.zeroPageX b)),
   (0xCD, .cmpAbsolute w, .memory (.absolute w)),
   (0xDD, .cmpAbsoluteX w, .memory (.absoluteX w)),
   (0xD9, .cmpAbsoluteY w, .memory (.absoluteY w)),
   (0xC1, .cmpIndexedIndirectX b, .memory (.indexedIndirectX b)),
   (0xD1, .cmpIndirectIndexedY b, .memory (.indirectIndexedY b))]

/-- The forms of CPX (R167). -/
def cpxForms (b : Byte) (w : Word) : List (Byte × Instr × Source) :=
  [(0xE0, .cpxImmediate b, .immediate b),
   (0xE4, .cpxZeroPage b, .memory (.zeroPage b)),
   (0xEC, .cpxAbsolute w, .memory (.absolute w))]

/-- The forms of CPY (R168). -/
def cpyForms (b : Byte) (w : Word) : List (Byte × Instr × Source) :=
  [(0xC0, .cpyImmediate b, .immediate b),
   (0xC4, .cpyZeroPage b, .memory (.zeroPage b)),
   (0xCC, .cpyAbsolute w, .memory (.absolute w))]

/-- The memory forms of STA (R143). -/
def staForms (b : Byte) (w : Word) : List (Byte × Instr × Address) :=
  [(0x85, .staZeroPage b, .zeroPage b),
   (0x95, .staZeroPageX b, .zeroPageX b),
   (0x8D, .staAbsolute w, .absolute w),
   (0x9D, .staAbsoluteX w, .absoluteX w),
   (0x99, .staAbsoluteY w, .absoluteY w),
   (0x81, .staIndexedIndirectX b, .indexedIndirectX b),
   (0x91, .staIndirectIndexedY b, .indirectIndexedY b)]

/-- The memory forms of STX (R144). -/
def stxForms (b : Byte) (w : Word) : List (Byte × Instr × Address) :=
  [(0x86, .stxZeroPage b, .zeroPage b),
   (0x96, .stxZeroPageY b, .zeroPageY b),
   (0x8E, .stxAbsolute w, .absolute w)]

/-- The memory forms of STY (R145). -/
def styForms (b : Byte) (w : Word) : List (Byte × Instr × Address) :=
  [(0x84, .styZeroPage b, .zeroPage b),
   (0x94, .styZeroPageX b, .zeroPageX b),
   (0x8C, .styAbsolute w, .absolute w)]

/-- The memory forms of INC (R180). -/
def incForms (b : Byte) (w : Word) : List (Byte × Instr × Address) :=
  [(0xE6, .incZeroPage b, .zeroPage b),
   (0xF6, .incZeroPageX b, .zeroPageX b),
   (0xEE, .incAbsolute w, .absolute w),
   (0xFE, .incAbsoluteX w, .absoluteX w)]

/-- The memory forms of DEC (R181). -/
def decForms (b : Byte) (w : Word) : List (Byte × Instr × Address) :=
  [(0xC6, .decZeroPage b, .zeroPage b),
   (0xD6, .decZeroPageX b, .zeroPageX b),
   (0xCE, .decAbsolute w, .absolute w),
   (0xDE, .decAbsoluteX w, .absoluteX w)]

/-- The memory forms of ASL (R186). -/
def aslForms (b : Byte) (w : Word) : List (Byte × Instr × Address) :=
  [(0x06, .aslZeroPage b, .zeroPage b),
   (0x16, .aslZeroPageX b, .zeroPageX b),
   (0x0E, .aslAbsolute w, .absolute w),
   (0x1E, .aslAbsoluteX w, .absoluteX w)]

/-- The memory forms of LSR (R187). -/
def lsrForms (b : Byte) (w : Word) : List (Byte × Instr × Address) :=
  [(0x46, .lsrZeroPage b, .zeroPage b),
   (0x56, .lsrZeroPageX b, .zeroPageX b),
   (0x4E, .lsrAbsolute w, .absolute w),
   (0x5E, .lsrAbsoluteX w, .absoluteX w)]

/-- The memory forms of ROL (R188). -/
def rolForms (b : Byte) (w : Word) : List (Byte × Instr × Address) :=
  [(0x26, .rolZeroPage b, .zeroPage b),
   (0x36, .rolZeroPageX b, .zeroPageX b),
   (0x2E, .rolAbsolute w, .absolute w),
   (0x3E, .rolAbsoluteX w, .absoluteX w)]

/-- The memory forms of ROR (R189). -/
def rorForms (b : Byte) (w : Word) : List (Byte × Instr × Address) :=
  [(0x66, .rorZeroPage b, .zeroPage b),
   (0x76, .rorZeroPageX b, .zeroPageX b),
   (0x6E, .rorAbsolute w, .absolute w),
   (0x7E, .rorAbsoluteX w, .absoluteX w)]

end Sys2Proof.Safety
end

