-- ==== Sys2Proof/Certificates/Slice0/Obligations.lean ====
section
/-! DEFINITION. What is claimed of the model, from the numbered rules of spec/. Statements in `exec` are
about an instruction after its fetch: PC is already the address of the next instruction (10_state.md
R31). A statement whose rule the spec marks as its own choice, or as supplied from general knowledge of
the MOS 6502, says so in its docstring. -/

open Sys2Proof Sys2Proof.Machine Sys2Proof.Safety

/-! ## Encoding -/

/-- 30_encoding.md R70 to R76: no bit of an instruction's encoding is dropped, for every instruction and
every operand. The opcode values are the spec's from general knowledge (R76, D7). -/
def Obligations.DecodeOfEncodeIsIdentity : Prop :=
  ∀ (i : Instr) (rest : List Byte), i.wellFormed = true → decode (encode i ++ rest) = .ok (i, rest)

/-- The other direction: each list of bytes has one meaning (30_encoding.md R74, R80). -/
def Obligations.EncodeOfDecodeIsIdentity : Prop :=
  ∀ (bs rest : List Byte) (i : Instr), decode bs = .ok (i, rest) →
    i.wellFormed = true ∧ encode i ++ rest = bs ∧ (encode i).length = i.size

/-- 30_encoding.md R75, R78: every opcode byte has exactly one entry, one of the 151 populated ones or the
invalid entry tagged with its own value. -/
def Obligations.EveryOpcodeHasOneEntry : Prop :=
  (∀ op b1 b2 : Byte, ∃ i rest, decode [op, b1, b2] = .ok (i, rest) ∧ opcodeOf i = some op ∧
    (Config.populated op = false ↔ i = .invalid op) ∧ (Config.populated op = false ↔ i.mnemonic = "???")) ∧
  ((List.range 256).filter (fun n => Config.populated (BitVec.ofNat 8 n))).length = 151

/-- A few words written out from R76 and R70 decode to the instruction they stand for. -/
def Obligations.SampleWordsDecode : Prop :=
  decode [0xA9, 0x80] = .ok (.ldaImmediate 0x80, []) ∧
  decode [0x8D, 0x00, 0xFC] = .ok (.staAbsolute 0xFC00, []) ∧
  decode [0x71, 0x20] = .ok (.adcIndirectIndexedY 0x20, []) ∧
  decode [0x7E, 0x00, 0x03] = .ok (.rorAbsoluteX 0x0300, []) ∧
  decode [0x6C, 0xFF, 0x12] = .ok (.jmpIndirect 0x12FF, []) ∧
  decode [0x40] = .ok (.rti, []) ∧
  decode [0x80, 0x00] = .ok (.invalid 0x80, [0x00])

/-! ## Memory -/

/-- 20_memory.md R42: a read of RNG_ADDR answers a draw and no stored byte, chosen afresh at each call
(the free value `Config.draw n`, a new `n` each time: log entry 1); another read answers the stored byte.
Neither changes the memory or a register. -/
def Obligations.MemReadAnswersCellOrFreshDraw : Prop :=
  ∀ (addr : Word) (s : State),
    (addr.toNat = s.rngAddr.toNat →
      memRead addr s = (Config.draw s.draws, { s with draws := s.draws + 1 })) ∧
    (addr.toNat ≠ s.rngAddr.toNat → memRead addr s = (Memory.get s.mem addr.toNat, s))

/-- 20_memory.md section 2: a write stores the byte in that one cell, calls the display sink once exactly
when the address is in 0xFC00..0xFFFF, changes no other cell and no register. The rule says so of any
memory; that the memory list is canonical, before as a premise and after as the last clause, is the model's
own form of it (log entry 9) and no rule of the spec. -/
def Obligations.MemWriteStoresOneByte : Prop :=
  ∀ (addr : Word) (v : Byte) (s : State), Memory.wf s.mem = true →
    (∀ b, Memory.get (memWrite addr v s).mem b = if b = addr.toNat then v else Memory.get s.mem b) ∧
    (memWrite addr v s).sink = sinkAfter addr v s ∧
    memWrite addr v s = { s with mem := (memWrite addr v s).mem, sink := (memWrite addr v s).sink } ∧
    Memory.wf (memWrite addr v s).mem = true

/-- 20_memory.md R55: after a write, a read of the same address gives the byte written, but for RNG_ADDR,
where the byte is stored and the read is a draw; the display sink is called exactly once for an address in
the window and never outside it. (At a 16-bit address and an 8-bit value port the masking half of R55 is
vacuous, as the rule says.) -/
def Obligations.ReadAfterWrite : Prop :=
  ∀ (addr : Word) (v : Byte) (s : State), Memory.wf s.mem = true →
    (addr.toNat ≠ s.rngAddr.toNat → (memRead addr (memWrite addr v s)).1 = v) ∧
    (addr.toNat = s.rngAddr.toNat → (memRead addr (memWrite addr v s)).1 = Config.draw s.draws ∧
      Memory.get (memWrite addr v s).mem addr.toNat = v) ∧
    (0xFC00 ≤ addr.toNat → (memWrite addr v s).sink = s.sink ++ [(addr, v)]) ∧
    (addr.toNat < 0xFC00 → (memWrite addr v s).sink = s.sink)

/-! ## Operands and addresses -/

/-- 40_execution_and_addressing.md R107, R110, R111, R112: the modes that compute an address from the
operand and one index register, without a memory access and without changing anything. -/
def Obligations.DirectAddresses : Prop :=
  ∀ (b : Byte) (w : Word) (s : State),
    ((Address.zeroPage b).resolve s).1.toNat = b.toNat ∧ ((Address.zeroPage b).resolve s).2 = s ∧
    ((Address.absolute w).resolve s).1 = w ∧ ((Address.absolute w).resolve s).2 = s ∧
    ((Address.absoluteX w).resolve s).1.toNat = (w.toNat + s.x.toNat) % 65536 ∧
      ((Address.absoluteX w).resolve s).2 = s ∧
    ((Address.absoluteY w).resolve s).1.toNat = (w.toNat + s.y.toNat) % 65536 ∧
      ((Address.absoluteY w).resolve s).2 = s

/-- 20_memory.md R46, R47 and 40_execution_and_addressing.md R108, R109, R113, R114, R115. The spec's own
choices D10 (no page wrap of a pointer read) and D11 (the zero-page index sums wrap inside the zero page):
a word is read low byte first, its high byte from `addr + 1` modulo 65536; an indexed zero-page sum is
modulo 256; the pointer modes read one word and wrap nowhere else but at 65536. -/
def Obligations.IndexedAndPointerAddresses : Prop :=
  ∀ (b : Byte) (w p : Word) (s : State),
    (let lo := memRead w s; let hi := memRead (w + 1) lo.2
      (readWord w s).1.toNat = hi.1.toNat * 256 + lo.1.toNat ∧ (readWord w s).2 = hi.2 ∧
      (w + 1).toNat = (w.toNat + 1) % 65536) ∧
    (((Address.zeroPageX b).resolve s).1.toNat = (b.toNat + s.x.toNat) % 256 ∧
      ((Address.zeroPageX b).resolve s).2 = s) ∧
    (((Address.zeroPageY b).resolve s).1.toNat = (b.toNat + s.y.toNat) % 256 ∧
      ((Address.zeroPageY b).resolve s).2 = s) ∧
    (Address.indirect w).resolve s = readWord w s ∧
    (p.toNat = (b.toNat + s.x.toNat) % 256 → (Address.indexedIndirectX b).resolve s = readWord p s) ∧
    (p.toNat = b.toNat →
      ((Address.indirectIndexedY b).resolve s).1.toNat = ((readWord p s).1.toNat + s.y.toNat) % 65536 ∧
      ((Address.indirectIndexedY b).resolve s).2 = (readWord p s).2)

/-- 40_execution_and_addressing.md R106, R127: an operand is the immediate byte, or one read at the
effective address; neither changes anything but the count of draws, which moves by at most 3. -/
def Obligations.ReadOperandReadsOnce : Prop :=
  ∀ (b : Byte) (m : Address) (s : State),
    readOperand (.immediate b) s = (b, s) ∧
    readOperand (.memory m) s = memRead (m.resolve s).1 (m.resolve s).2 ∧
    (readOperand (.memory m) s).2 = { s with draws := (readOperand (.memory m) s).2.draws } ∧
    s.draws ≤ (readOperand (.memory m) s).2.draws ∧ (readOperand (.memory m) s).2.draws ≤ s.draws + 3

/-! ## Fetch and step -/

/-- 40_execution_and_addressing.md R104, R105: FetchByte reads at PC and advances it by one, FetchWord by
two with the low byte first; PC wraps modulo 65536. -/
def Obligations.FetchAdvancesPc : Prop :=
  ∀ s : State,
    (fetchByte s).1 = (memRead s.pc s).1 ∧
    (fetchByte s).2 = { (memRead s.pc s).2 with pc := (fetchByte s).2.pc } ∧
    (fetchByte s).2.pc.toNat = (s.pc.toNat + 1) % 65536 ∧
    (fetchWord s).1.toNat = (fetchByte (fetchByte s).2).1.toNat * 256 + (fetchByte s).1.toNat ∧
    (fetchWord s).2 = (fetchByte (fetchByte s).2).2 ∧
    (fetchWord s).2.pc.toNat = (s.pc.toNat + 2) % 65536

/-- 10_state.md R31: the fetch leaves PC at the address plus the instruction's size, modulo 65536, and
changes nothing else but the count of draws; an instruction that does not transfer control leaves PC
there. -/
def Obligations.PcProtocol : Prop :=
  ∀ s : State,
    (fetch s).2.pc.toNat = (s.pc.toNat + (fetch s).1.size) % 65536 ∧
    (fetch s).2 = { s with pc := (fetch s).2.pc, draws := (fetch s).2.draws } ∧
    ∀ t, s.executing = true → step s = .next t →
      (fetch s).1.mnemonic ∉
        ["JMP", "JSR", "RTS", "RTI", "BRK", "BCC", "BCS", "BEQ", "BNE", "BMI", "BPL", "BVC", "BVS"] →
      t.pc.toNat = (s.pc.toNat + (fetch s).1.size) % 65536

/-- 40_execution_and_addressing.md R100: a step runs the instruction it decodes. When the bytes at PC,
none of them at the tap, decode to `i`, the step is `exec i` with PC moved past `i`. For any bytes it is
`exec` of what the fetch answers. -/
def Obligations.StepRunsTheDecodedInstruction : Prop :=
  ∀ (s : State) (i : Instr) (rest : List Byte), s.executing = true →
    step s = exec (fetch s).1 (fetch s).2 ∧
    ((∀ k, k < i.size → (s.pc + BitVec.ofNat 16 k).toNat ≠ s.rngAddr.toNat) →
      decode [Memory.get s.mem s.pc.toNat, Memory.get s.mem (s.pc + 1).toNat,
        Memory.get s.mem (s.pc + 2).toNat] = .ok (i, rest) →
      step s = exec i { s with pc := s.pc + BitVec.ofNat 16 i.size })

/-- Placing an instruction word at the reset state's PC and starting the core makes the next step run
exactly that instruction (the model's reading of Load and Run, log entry 6). -/
def Obligations.PlacedInstructionIsRun : Prop :=
  ∀ (nbits w : Nat) (i : Instr), decodeTableWord nbits w = some i →
    let s := State.reset.withFetchWord nbits w
    step s = exec i { s with pc := 0x0200 + BitVec.ofNat 16 i.size }

/-- 40_execution_and_addressing.md R100, 60_exceptions.md R245 (the spec's own choice D20): in Stopped and
in Halted a step has no effect. -/
def Obligations.StoppedAndHaltedAreFixed : Prop :=
  ∀ s : State, (s.runningState = false ∨ s.errorState = true) → step s = .next s

/-- 40_execution_and_addressing.md R101: every step that executes answers a next state, and no other
outcome exists. It succeeds, still Running with one more instruction counted and no fault recorded or
logged, or it has raised a fault: the state is Halt of the state the instruction had reached, in which the
counter had not moved. -/
def Obligations.StepSucceedsOrHalts : Prop :=
  ∀ s : State, s.executing = true → ∃ t, step s = .next t ∧
    ((t.runningState = true ∧ t.errorState = false ∧ t.lastFault = s.lastFault ∧ t.log = s.log ∧
      t.count = s.count + 1) ∨
    ∃ f u, t = halt f u ∧ u.count = s.count ∧ u.log = s.log ∧ t.runningState = false ∧ t.errorState = true ∧
      t.lastFault = some f)

/-- 60_exceptions.md R244: Halt(F) ends Running, sets Halted, records the fault, writes one log line and
changes nothing else; no command of the host but Reset clears Halted, the batch tick included. -/
def Obligations.HaltTakesTheFault : Prop :=
  ∀ (f : Fault) (s : State),
    (halt f s).runningState = false ∧ (halt f s).errorState = true ∧ (halt f s).lastFault = some f ∧
    (halt f s).log = s.log ++ [.halt f] ∧
    halt f s = { s with
      runningState := (halt f s).runningState, errorState := (halt f s).errorState,
      lastFault := (halt f s).lastFault, log := (halt f s).log } ∧
    (∀ c t, c ≠ Command.reset → perform c (halt f s) = .next t → t.errorState = true ∧ t.runningState = false) ∧
    (∀ t, perform .reset (halt f s) = .next t → t.errorState = false)

/-- 60_exceptions.md R241: an opcode byte whose slot holds the invalid entry raises InvalidOpcode with that
byte; PC is one past it and nothing else has changed (but the draw, if the opcode was drawn). The
instruction `invalid op` completes by taking that fault. -/
def Obligations.InvalidOpcodeHalts : Prop :=
  (∀ (op : Byte) (s : State), exec (.invalid op) s = .next (halt (.invalidOpcode op) s)) ∧
  (∀ (s : State), s.executing = true → Config.populated (memRead s.pc s).1 = false →
    step s = .next (halt (.invalidOpcode (memRead s.pc s).1) { (memRead s.pc s).2 with pc := s.pc + 1 }))

/-! ## Invariants -/

/-- The legal states stay legal: memory canonical, run state never (true, true) (10_state.md R25), Halted
exactly when a fault is recorded, every sink call in the window (20_memory.md R45). -/
def Obligations.EveryStepKeepsTheInvariant : Prop := ∀ s t : State, Legal s → step s = .next t → Legal t

/-- The reset state is legal. -/
def Obligations.ResetMeetsTheInvariant : Prop := Legal State.reset

/-- Every command of the host keeps the legal states legal (70_reset_and_hazards.md R270 to R280). -/
def Obligations.EveryCommandKeepsTheInvariant : Prop :=
  ∀ (c : Command) (s t : State), Legal s → perform c s = .next t → Legal t

/-- No step changes the parameter RNG_ADDR (00_scope.md R3; that it is a field of State is log entry 2). The
instruction counter never falls (40_execution_and_addressing.md R101: a success raises it by one, a fault
leaves it). The display-sink trace only grows at its end (20_memory.md R45: one element per store into the
window, in program order). The log trace only grows at its end (60_exceptions.md R244 and R250: one line at
a Halt; which lines the model keeps is log entry 7). Draws are never taken back: the count of them is the
model's own field (log entry 1) and no rule of the spec. -/
def Obligations.TracesOnlyGrow : Prop :=
  ∀ s t : State, step s = .next t →
    t.rngAddr = s.rngAddr ∧ s.draws ≤ t.draws ∧ s.count ≤ t.count ∧ s.sink <+: t.sink ∧ s.log <+: t.log

/-! ## Rules over all instructions -/

/-- 10_state.md R18 to R24: only the listed instructions change each bit of P. The instruction lists are
the spec's from general knowledge. -/
def Obligations.StatusBitWriters : Prop :=
  ∀ (i : Instr) (s t : State), exec i s = .next t →
    (t.p.getLsbD 0 ≠ s.p.getLsbD 0 → i.mnemonic ∈ ["ADC", "SBC", "CMP", "CPX", "CPY", "ASL", "LSR", "ROL",
      "ROR", "SEC", "CLC", "PLP", "RTI"]) ∧
    ((t.p.getLsbD 1 ≠ s.p.getLsbD 1 ∨ t.p.getLsbD 7 ≠ s.p.getLsbD 7) → i.mnemonic ∈ ["LDA", "LDX", "LDY",
      "TAX", "TAY", "TXA", "TYA", "TSX", "PLA", "AND", "ORA", "EOR", "ADC", "SBC", "CMP", "CPX", "CPY", "INC",
      "DEC", "INX", "INY", "DEX", "DEY", "ASL", "LSR", "ROL", "ROR", "BIT", "PLP", "RTI"]) ∧
    (t.p.getLsbD 2 ≠ s.p.getLsbD 2 → i.mnemonic ∈ ["SEI", "CLI", "BRK", "PLP", "RTI"]) ∧
    (t.p.getLsbD 3 ≠ s.p.getLsbD 3 → i.mnemonic ∈ ["SED", "CLD", "PLP", "RTI"]) ∧
    ((t.p.getLsbD 4 ≠ s.p.getLsbD 4 ∨ t.p.getLsbD 5 ≠ s.p.getLsbD 5) → i.mnemonic ∈ ["PLP", "RTI"]) ∧
    (t.p.getLsbD 6 ≠ s.p.getLsbD 6 → i.mnemonic ∈ ["ADC", "SBC", "BIT", "CLV", "PLP", "RTI"])

/-- 10_state.md R11 to R14 and R30: only the listed instructions change A, X, Y or SP. The lists are the
spec's from general knowledge. -/
def Obligations.RegisterWriters : Prop :=
  ∀ (i : Instr) (s t : State), exec i s = .next t →
    (t.a ≠ s.a → i.mnemonic ∈ ["LDA", "ADC", "SBC", "AND", "ORA", "EOR", "PLA", "TXA", "TYA"] ∨
      (i.mnemonic ∈ ["ASL", "LSR", "ROL", "ROR"] ∧ i.mode = some .single)) ∧
    (t.x ≠ s.x → i.mnemonic ∈ ["LDX", "TAX", "TSX", "INX", "DEX"]) ∧
    (t.y ≠ s.y → i.mnemonic ∈ ["LDY", "TAY", "INY", "DEY"]) ∧
    (t.sp ≠ s.sp → i.mnemonic ∈ ["PHA", "PHP", "PLA", "PLP", "JSR", "RTS", "BRK", "RTI", "TXS"])

/-- The frame of memory over all instructions: an instruction other than a store, a memory
read-modify-write or a push leaves every byte of memory as it was, and one other than a store or a
read-modify-write makes no sink call; no instruction makes more than one. A push goes through MemWrite as a
store does; that it makes no sink call holds because STACK_BASE = 0x0100, the spec's own choice D1 (log
entry 3), puts the stack page outside the display window (20_memory.md section 3, 95_test_vectors.md Q6). -/
def Obligations.MemoryWriters : Prop :=
  ∀ (i : Instr) (s t : State), exec i s = .next t →
    (¬SameMemory s t →
      i.mnemonic ∈ ["STA", "STX", "STY", "INC", "DEC", "PHA", "PHP", "JSR", "BRK"] ∨
      (i.mnemonic ∈ ["ASL", "LSR", "ROL", "ROR"] ∧ i.mode ≠ some .single)) ∧
    (t.sink ≠ s.sink →
      (i.mnemonic ∈ ["STA", "STX", "STY", "INC", "DEC"] ∨
        (i.mnemonic ∈ ["ASL", "LSR", "ROL", "ROR"] ∧ i.mode ≠ some .single)) ∧
      ∃ addr v, 0xFC00 ≤ addr.toNat ∧ t.sink = s.sink ++ [(addr, v)])

/-! ## Flags and the ALU -/

/-- 40_execution_and_addressing.md R121: SetNZ sets N from bit 7 and Z when the value is 0, and touches no
other bit and nothing else. -/
def Obligations.SetNZWritesTwoFlags : Prop :=
  ∀ (v : Byte) (s : State), NZOf v (setNZ v s).p ∧ SameBitsBut [1, 7] s.p (setNZ v s).p ∧
    setNZ v s = { s with p := (setNZ v s).p }

/-- 40_execution_and_addressing.md R123: an offset above 0x7F goes back by 0x100 minus it, another goes
forward, modulo 65536; that is the signed displacement. -/
def Obligations.BranchTargetIsSignedDisplacement : Prop :=
  ∀ (a : Word) (off : Byte),
    (0x7F < off.toNat → (branchTarget a off).toNat = (a.toNat + 65536 - (0x100 - off.toNat)) % 65536) ∧
    (off.toNat ≤ 0x7F → (branchTarget a off).toNat = (a.toNat + off.toNat) % 65536) ∧
    ((branchTarget a off).toNat : Int) = ((a.toNat : Int) + off.toInt) % 65536

/-- R124, R160 (the spec's own choice within the source's words, D12): every form of ADC completes, in
both modes and for every operand: V is the signed overflow of the binary sum, N and Z describe the new A,
and only A, C, V, N, Z change. -/
def Obligations.AdcCompletes : Prop :=
  ∀ (b : Byte) (w : Word) (s : State), ∀ e ∈ adcForms b w,
    let m := readOperand e.2.2 s
    opcodeOf e.2.1 = some e.1 ∧ ∃ t, exec e.2.1 s = .next t ∧
      NZOf t.a t.p ∧ SameBitsBut [0, 1, 6, 7] s.p t.p ∧
      (t.p.getLsbD 6 = true ↔
        s.a.toInt + m.1.toInt + carryIn s < -128 ∨ 127 < s.a.toInt + m.1.toInt + carryIn s) ∧
      t = { m.2 with a := t.a, p := t.p, count := s.count + 1 }

/-- R124, R160 (D12): in binary mode A is the sum modulo 256 and C the carry out of bit 7; in decimal mode
on valid BCD operands A is the BCD sum modulo 100 and C says that it exceeds 99. On any operands of decimal
mode, valid BCD or not, each nibble of A is the corrected sum of its nibbles and C says that the high one
reached 10; on operands that are not valid BCD this one definite result is the spec's own
(93_implementation_defined.md U4). -/
def Obligations.AdcResult : Prop :=
  ∀ (b : Byte) (w : Word) (s : State), ∀ e ∈ adcForms b w,
    let m := (readOperand e.2.2 s).1
    (s.p.getLsbD 3 = false → ∃ t, exec e.2.1 s = .next t ∧
      t.a.toNat = (s.a.toNat + m.toNat + carryIn s) % 256 ∧
      t.p.getLsbD 0 = decide (255 < s.a.toNat + m.toNat + carryIn s)) ∧
    (s.p.getLsbD 3 = true → ValidBcd s.a → ValidBcd m → ∃ t, exec e.2.1 s = .next t ∧ ValidBcd t.a ∧
      dec t.a = (dec s.a + dec m + carryIn s) % 100 ∧
      t.p.getLsbD 0 = decide (99 < dec s.a + dec m + carryIn s)) ∧
    (s.p.getLsbD 3 = true →
      let low := s.a.toNat % 16 + m.toNat % 16 + carryIn s
      let high := s.a.toNat / 16 + m.toNat / 16 + (if 10 ≤ low then 1 else 0)
      ∃ t, exec e.2.1 s = .next t ∧ t.a.toNat = 16 * sumDigit high + sumDigit low ∧
        t.p.getLsbD 0 = decide (10 ≤ high))

/-- R125, R161 (D12): every form of SBC completes, in both modes and for every operand: C is the binary
no-borrow, V the signed overflow of the binary difference, N and Z describe the new A, and only A, C, V,
N, Z change. -/
def Obligations.SbcCompletes : Prop :=
  ∀ (b : Byte) (w : Word) (s : State), ∀ e ∈ sbcForms b w,
    let m := readOperand e.2.2 s
    opcodeOf e.2.1 = some e.1 ∧ ∃ t, exec e.2.1 s = .next t ∧
      NZOf t.a t.p ∧ SameBitsBut [0, 1, 6, 7] s.p t.p ∧
      (t.p.getLsbD 0 = true ↔ m.1.toNat + (1 - carryIn s) ≤ s.a.toNat) ∧
      (t.p.getLsbD 6 = true ↔
        s.a.toInt - m.1.toInt - (1 - (carryIn s : Int)) < -128 ∨
        127 < s.a.toInt - m.1.toInt - (1 - (carryIn s : Int))) ∧
      t = { m.2 with a := t.a, p := t.p, count := s.count + 1 }

/-- R125, R161 (D12): SBC in binary mode is the difference modulo 256, and on valid BCD operands in
decimal mode the BCD difference modulo 100. On any operands of decimal mode, valid BCD or not, each nibble
of A is the corrected difference of its nibbles; on operands that are not valid BCD this one definite result
is the spec's own (93_implementation_defined.md U4). (C is the binary no-borrow in both modes:
SbcCompletes.) -/
def Obligations.SbcResult : Prop :=
  ∀ (b : Byte) (w : Word) (s : State), ∀ e ∈ sbcForms b w,
    let m := (readOperand e.2.2 s).1
    (s.p.getLsbD 3 = false → ∃ t, exec e.2.1 s = .next t ∧
      (t.a.toNat : Int) = ((s.a.toNat : Int) - m.toNat - (1 - (carryIn s : Int))) % 256) ∧
    (s.p.getLsbD 3 = true → ValidBcd s.a → ValidBcd m → ∃ t, exec e.2.1 s = .next t ∧ ValidBcd t.a ∧
      (dec t.a : Int) = ((dec s.a : Int) - dec m - (1 - (carryIn s : Int))) % 100) ∧
    (s.p.getLsbD 3 = true →
      let low : Int := (s.a.toNat % 16 : Nat) - (m.toNat % 16 : Nat) - (1 - (carryIn s : Int))
      let high : Int := (s.a.toNat / 16 : Nat) - (m.toNat / 16 : Nat) - (if low < 0 then 1 else 0)
      ∃ t, exec e.2.1 s = .next t ∧ (t.a.toNat : Int) = 16 * differenceDigit high + differenceDigit low)

/-- R125, Q10: with D clear, SBC of a byte is ADC of its complement, in A and all flags. -/
def Obligations.SbcIsAdcOfComplement : Prop :=
  ∀ (b : Byte) (s t : State), s.p.getLsbD 3 = false →
    exec (.sbcImmediate b) s = .next t → exec (.adcImmediate (~~~b)) s = .next t

/-! ## Loads, stores, transfers (41_load_store_transfer.md) -/

/-- R140, R141, R142 (the spec's from general knowledge): every form of LDA, LDX, LDY loads its operand,
sets N and Z from it, and changes nothing else. -/
def Obligations.LoadsComplete : Prop :=
  ∀ (b : Byte) (w : Word) (s : State),
    (∀ e ∈ ldaForms b w, let m := readOperand e.2.2 s
      opcodeOf e.2.1 = some e.1 ∧ ∃ t, exec e.2.1 s = .next t ∧ NZOf m.1 t.p ∧ SameBitsBut [1, 7] s.p t.p ∧
        t = { m.2 with a := m.1, p := t.p, count := s.count + 1 }) ∧
    (∀ e ∈ ldxForms b w, let m := readOperand e.2.2 s
      opcodeOf e.2.1 = some e.1 ∧ ∃ t, exec e.2.1 s = .next t ∧ NZOf m.1 t.p ∧ SameBitsBut [1, 7] s.p t.p ∧
        t = { m.2 with x := m.1, p := t.p, count := s.count + 1 }) ∧
    (∀ e ∈ ldyForms b w, let m := readOperand e.2.2 s
      opcodeOf e.2.1 = some e.1 ∧ ∃ t, exec e.2.1 s = .next t ∧ NZOf m.1 t.p ∧ SameBitsBut [1, 7] s.p t.p ∧
        t = { m.2 with y := m.1, p := t.p, count := s.count + 1 })

/-- R143, R144, R145 (general knowledge): every form of STA, STX, STY stores its register at the effective
address with no read of it, notifies the display sink when that lies in the window, and leaves every other
byte, every register and every flag as it was. -/
def Obligations.StoresComplete : Prop :=
  ∀ (b : Byte) (w : Word) (s : State), Memory.wf s.mem = true →
    ∀ r ∈ [(staForms b w, s.a), (stxForms b w, s.x), (styForms b w, s.y)], ∀ e ∈ r.1,
      let ea := e.2.2.resolve s
      opcodeOf e.2.1 = some e.1 ∧ ∃ t, exec e.2.1 s = .next t ∧
        Memory.get t.mem ea.1.toNat = r.2 ∧ SameMemoryBut [ea.1.toNat] s t ∧ t.sink = sinkAfter ea.1 r.2 s ∧
        t = { ea.2 with mem := t.mem, sink := t.sink, count := s.count + 1 }

/-- R146 to R151 (general knowledge): the transfers copy one register; all but TXS set N and Z from the
value; TXS accepts any byte and sets no flag; nothing else changes. -/
def Obligations.TransfersComplete : Prop :=
  ∀ s : State,
    (∀ e ∈ [(0xAA#8, Instr.tax, s.a, { s with x := s.a }), (0xA8#8, .tay, s.a, { s with y := s.a }),
        (0x8A#8, .txa, s.x, { s with a := s.x }), (0x98#8, .tya, s.y, { s with a := s.y }),
        (0xBA#8, .tsx, s.sp, { s with x := s.sp })],
      opcodeOf e.2.1 = some e.1 ∧ ∃ t, exec e.2.1 s = .next t ∧ NZOf e.2.2.1 t.p ∧ SameBitsBut [1, 7] s.p t.p ∧
        t = { e.2.2.2 with p := t.p, count := s.count + 1 }) ∧
    opcodeOf .txs = some 0x9A ∧ exec .txs s = .next { s with sp := s.x, count := s.count + 1 }

/-! ## Logic, bit test, compare (42_arithmetic_logic.md) -/

/-- R162, R163, R164 (general knowledge): every form of AND, ORA, EOR combines A with its operand bit by
bit, sets N and Z from the result and changes nothing else. -/
def Obligations.LogicCompletes : Prop :=
  ∀ (b : Byte) (w : Word) (s : State),
    ∀ r ∈ [(andForms b w, Bool.and), (oraForms b w, Bool.or), (eorForms b w, Bool.xor)], ∀ e ∈ r.1,
      let m := readOperand e.2.2 s
      opcodeOf e.2.1 = some e.1 ∧ ∃ t, exec e.2.1 s = .next t ∧
        (∀ k, k < 8 → t.a.getLsbD k = r.2 (s.a.getLsbD k) (m.1.getLsbD k)) ∧
        NZOf t.a t.p ∧ SameBitsBut [1, 7] s.p t.p ∧
        t = { m.2 with a := t.a, p := t.p, count := s.count + 1 }

/-- R165 (general knowledge): BIT sets Z from A and the operand, copies the operand's bits 7 and 6 into N
and V, and changes nothing else. -/
def Obligations.BitCompletes : Prop :=
  ∀ (b : Byte) (w : Word) (s : State), ∀ e ∈ bitForms b w,
    let m := readOperand e.2.2 s
    opcodeOf e.2.1 = some e.1 ∧ ∃ t, exec e.2.1 s = .next t ∧
      (t.p.getLsbD 1 = true ↔ ∀ k, k < 8 → ¬(s.a.getLsbD k = true ∧ m.1.getLsbD k = true)) ∧
      t.p.getLsbD 7 = m.1.getLsbD 7 ∧ t.p.getLsbD 6 = m.1.getLsbD 6 ∧ SameBitsBut [1, 6, 7] s.p t.p ∧
      t = { m.2 with p := t.p, count := s.count + 1 }

/-- R122, R166, R167, R168 (the carry is the spec's own choice D8): every form of CMP, CPX, CPY sets C when
the register is at least the operand, Z when they are equal, N to bit 7 of the difference, and changes
nothing else. -/
def Obligations.ComparesComplete : Prop :=
  ∀ (b : Byte) (w : Word) (s : State),
    ∀ r ∈ [(cmpForms b w, s.a), (cpxForms b w, s.x), (cpyForms b w, s.y)], ∀ e ∈ r.1,
      let m := readOperand e.2.2 s
      opcodeOf e.2.1 = some e.1 ∧ ∃ t, exec e.2.1 s = .next t ∧
        (t.p.getLsbD 0 = true ↔ m.1.toNat ≤ r.2.toNat) ∧ (t.p.getLsbD 1 = true ↔ r.2 = m.1) ∧
        (t.p.getLsbD 7 = true ↔ 128 ≤ (r.2.toNat + 256 - m.1.toNat) % 256) ∧
        SameBitsBut [0, 1, 7] s.p t.p ∧ t = { m.2 with p := t.p, count := s.count + 1 }

/-! ## Increments, shifts (43_incdec_shift.md) -/

/-- R128, R180, R181 (general knowledge; one read and one write, D23): every form of INC and DEC replaces
the byte at the effective address by it plus or minus one modulo 256, sets N and Z, and leaves every other
byte, register and flag as it was. -/
def Obligations.IncDecMemoryComplete : Prop :=
  ∀ (b : Byte) (w : Word) (s : State), Memory.wf s.mem = true →
    ∀ r ∈ [(incForms b w, 1), (decForms b w, 255)], ∀ e ∈ r.1,
      let ea := e.2.2.resolve s
      let old := memRead ea.1 ea.2
      opcodeOf e.2.1 = some e.1 ∧ ∃ t, exec e.2.1 s = .next t ∧
        (Memory.get t.mem ea.1.toNat).toNat = (old.1.toNat + r.2) % 256 ∧ SameMemoryBut [ea.1.toNat] s t ∧
        t.sink = sinkAfter ea.1 (Memory.get t.mem ea.1.toNat) s ∧
        NZOf (Memory.get t.mem ea.1.toNat) t.p ∧ SameBitsBut [1, 7] s.p t.p ∧
        t = { old.2 with mem := t.mem, sink := t.sink, p := t.p, count := s.count + 1 }

/-- R182 to R185 (general knowledge): INX, INY, DEX, DEY step the register modulo 256, set N and Z and
change nothing else. -/
def Obligations.IncDecRegisterComplete : Prop :=
  ∀ s : State,
    (∀ e ∈ [(0xE8#8, Instr.inx, 1), (0xCA#8, .dex, 255)], opcodeOf e.2.1 = some e.1 ∧
      ∃ t, exec e.2.1 s = .next t ∧ t.x.toNat = (s.x.toNat + e.2.2) % 256 ∧ NZOf t.x t.p ∧
        SameBitsBut [1, 7] s.p t.p ∧ t = { s with x := t.x, p := t.p, count := s.count + 1 }) ∧
    (∀ e ∈ [(0xC8#8, Instr.iny, 1), (0x88#8, .dey, 255)], opcodeOf e.2.1 = some e.1 ∧
      ∃ t, exec e.2.1 s = .next t ∧ t.y.toNat = (s.y.toNat + e.2.2) % 256 ∧ NZOf t.y t.p ∧
        SameBitsBut [1, 7] s.p t.p ∧ t = { s with y := t.y, p := t.p, count := s.count + 1 })

/-- R186 to R189, accumulator forms (general knowledge; mode Single is D14): A is shifted or rotated by
one bit through carry, C is the bit moved out, N and Z describe the result, nothing else changes. -/
def Obligations.ShiftAccumulatorCompletes : Prop :=
  ∀ s : State,
    ∀ e ∈ [(0x0A#8, Instr.aslAccumulator, 7, (2 * s.a.toNat) % 256),
        (0x4A#8, .lsrAccumulator, 0, s.a.toNat / 2),
        (0x2A#8, .rolAccumulator, 7, (2 * s.a.toNat + carryIn s) % 256),
        (0x6A#8, .rorAccumulator, 0, s.a.toNat / 2 + 128 * carryIn s)],
      opcodeOf e.2.1 = some e.1 ∧ ∃ t, exec e.2.1 s = .next t ∧ t.a.toNat = e.2.2.2 ∧
        t.p.getLsbD 0 = s.a.getLsbD e.2.2.1 ∧ NZOf t.a t.p ∧ SameBitsBut [0, 1, 7] s.p t.p ∧
        t = { s with a := t.a, p := t.p, count := s.count + 1 }

/-- R186 to R189, memory forms (general knowledge; one read and one write, D23): the byte at the effective
address is shifted or rotated by one bit through carry, C is the bit moved out, N and Z describe the
result, and every other byte, register and flag is as it was. -/
def Obligations.ShiftMemoryCompletes : Prop :=
  ∀ (b : Byte) (w : Word) (s : State), Memory.wf s.mem = true →
    ∀ r ∈ [(aslForms b w, 7, fun v => (2 * v) % 256), (lsrForms b w, 0, fun v => v / 2),
        (rolForms b w, 7, fun v => (2 * v + carryIn s) % 256), (rorForms b w, 0, fun v => v / 2 + 128 * carryIn s)],
    ∀ e ∈ r.1,
      let ea := e.2.2.resolve s
      let old := memRead ea.1 ea.2
      opcodeOf e.2.1 = some e.1 ∧ ∃ t, exec e.2.1 s = .next t ∧
        (Memory.get t.mem ea.1.toNat).toNat = r.2.2 old.1.toNat ∧ SameMemoryBut [ea.1.toNat] s t ∧
        t.sink = sinkAfter ea.1 (Memory.get t.mem ea.1.toNat) s ∧
        t.p.getLsbD 0 = old.1.getLsbD r.2.1 ∧ NZOf (Memory.get t.mem ea.1.toNat) t.p ∧
        SameBitsBut [0, 1, 7] s.p t.p ∧
        t = { old.2 with mem := t.mem, sink := t.sink, p := t.p, count := s.count + 1 }

/-! ## Control flow (44_control_flow.md) -/

/-- R200, R201 (opcode values from general knowledge; the pointer read is D10): JMP sets PC to its operand,
or to the word stored there, and changes nothing else. -/
def Obligations.JumpsComplete : Prop :=
  ∀ (w : Word) (s : State),
    opcodeOf (.jmpAbsolute w) = some 0x4C ∧
    exec (.jmpAbsolute w) s = .next { s with pc := w, count := s.count + 1 } ∧
    opcodeOf (.jmpIndirect w) = some 0x6C ∧
    exec (.jmpIndirect w) s = .next { (readWord w s).2 with pc := (readWord w s).1, count := s.count + 1 }

/-- R204 to R211 and section 3 (which flag each tests is general knowledge): a branch goes to the address
of the next instruction plus the signed displacement, modulo 65536, when its flag has the value it tests
for, else PC stays; nothing else changes. -/
def Obligations.BranchesComplete : Prop :=
  ∀ (off : Byte) (s : State),
    ∀ e ∈ [(0x90#8, Instr.bcc off, 0, false), (0xB0#8, .bcs off, 0, true), (0xF0#8, .beq off, 1, true),
        (0xD0#8, .bne off, 1, false), (0x30#8, .bmi off, 7, true), (0x10#8, .bpl off, 7, false),
        (0x50#8, .bvc off, 6, false), (0x70#8, .bvs off, 6, true)],
      opcodeOf e.2.1 = some e.1 ∧ ∃ t, exec e.2.1 s = .next t ∧
        (s.p.getLsbD e.2.2.1 = e.2.2.2 → (t.pc.toNat : Int) = ((s.pc.toNat : Int) + off.toInt) % 65536) ∧
        (s.p.getLsbD e.2.2.1 ≠ e.2.2.2 → t.pc = s.pc) ∧
        t = { s with pc := t.pc, count := s.count + 1 }

/-- R202 (operands before pushes is D25): with room for two bytes JSR pushes the high and then the low byte
of PC - 1 and jumps; every other byte of memory, and everything else, is as it was. -/
def Obligations.JsrCompletes : Prop :=
  ∀ (w : Word) (s : State), Memory.wf s.mem = true → 2 ≤ s.sp.toNat →
    opcodeOf (.jsr w) = some 0x20 ∧ ∃ t, exec (.jsr w) s = .next t ∧
      (Memory.get t.mem (0x100 + s.sp.toNat - 1)).toNat = (s.pc - 1).toNat / 256 ∧
      (Memory.get t.mem (0x100 + s.sp.toNat - 2)).toNat = (s.pc - 1).toNat % 256 ∧
      SameMemoryBut [0x100 + s.sp.toNat - 1, 0x100 + s.sp.toNat - 2] s t ∧
      t = { s with mem := t.mem, sp := s.sp - 2, pc := w, count := s.count + 1 }

/-- R120, R203: with two bytes on the stack RTS sets PC to the popped word, low byte first, plus one
modulo 65536; the popped cells keep their content. -/
def Obligations.RtsCompletes : Prop :=
  ∀ s : State, s.sp.toNat ≤ 0xFD →
    opcodeOf .rts = some 0x60 ∧ ∃ t, exec .rts s = .next t ∧
      t.pc.toNat = ((Memory.get s.mem (0x101 + s.sp.toNat)).toNat * 256 +
        (Memory.get s.mem (0x100 + s.sp.toNat)).toNat + 1) % 65536 ∧
      t = { s with pc := t.pc, sp := s.sp + 2, count := s.count + 1 }

/-- R202, R203, R232, R233 and Q8 (D13, D15, D16, D25): an RTS that finds SP and the two pushed cells as a
JSR left them continues after the JSR, with SP as before it; an RTI that finds SP and the three pushed cells
as a BRK left them continues two bytes after the BRK opcode, with SP as before it and P as before it but for
bit 4, which comes back set. RTS itself leaves P as it finds it. Nothing is asked of the rest of the memory
or of any other register. -/
def Obligations.ReturnsUndoCalls : Prop :=
  ∀ (w : Word) (s t v u : State), Memory.wf s.mem = true → v.sp = t.sp →
    (∀ a, 0x100 + t.sp.toNat ≤ a → a < 0x100 + s.sp.toNat → Memory.get v.mem a = Memory.get t.mem a) →
    (2 ≤ s.sp.toNat → exec (.jsr w) s = .next t → exec .rts v = .next u →
      u.pc = s.pc ∧ u.sp = s.sp ∧ u.p = v.p) ∧
    (3 ≤ s.sp.toNat → exec .brk s = .next t → exec .rti v = .next u →
      u.pc = s.pc + 1 ∧ u.sp = s.sp ∧ ∀ k, k < 8 → u.p.getLsbD k = (decide (k = 4) || s.p.getLsbD k))

/-! ## Stack, flags, system (45_stack_flags_system.md) -/

/-- 40_execution_and_addressing.md R118 (the constants STACK_BASE and STACK_TOP are the spec's own choice
D1, D2): Push lowers SP and then stores, or raises StackOverflow at SP = 0 with nothing changed. -/
def Obligations.PushStoresBelowSp : Prop :=
  ∀ (v : Byte) (s : State),
    (s.sp.toNat = 0 → push v s = .raise .stackOverflow s) ∧
    (s.sp.toNat ≠ 0 → ∃ addr : Word, addr.toNat = Config.stackBase.toNat + (s.sp.toNat - 1) ∧
      push v s = .ok () (memWrite addr v { s with sp := s.sp - 1 }))

/-- 40_execution_and_addressing.md section 4 and 95_test_vectors.md Q3 (the constants STACK_BASE and
STACK_TOP are the spec's own choice D1, D2: log entry 3): Pop reads the cell SP designates and then raises
SP, or raises StackUnderflow at SP >= STACK_TOP with nothing changed; for any bytes within capacity, popping
gives back in reverse order what was pushed, SP is as before, no cell outside the pushed ones is written, and
the pops draw nothing, since with that STACK_BASE no stack cell is the random-number tap. -/
def Obligations.PopAndLastInFirstOut : Prop :=
  (∀ s : State,
    (Config.stackTop.toNat ≤ s.sp.toNat → pop s = .raise .stackUnderflow s) ∧
    (s.sp.toNat < Config.stackTop.toNat → ∃ addr : Word, addr.toNat = Config.stackBase.toNat + s.sp.toNat ∧
      pop s = .ok (memRead addr s).1 { (memRead addr s).2 with sp := s.sp + 1 })) ∧
  (∀ (bs : List Byte) (s : State), Memory.wf s.mem = true → bs.length ≤ s.sp.toNat →
    ∃ t, pushAll bs s = .ok () t ∧ t.sp.toNat = s.sp.toNat - bs.length ∧
      (∀ a, (a < Config.stackBase.toNat + t.sp.toNat ∨ Config.stackBase.toNat + s.sp.toNat ≤ a) →
        Memory.get t.mem a = Memory.get s.mem a) ∧
      popAll bs.length t = .ok bs.reverse { t with sp := s.sp })

/-- R220, R222 (general knowledge; P pushed as stored is D15): with room for one byte PHA and PHP store A or
all eight bits of P under the old SP; every other byte, and everything else, is as it was. -/
def Obligations.PushInstructionsComplete : Prop :=
  ∀ s : State, Memory.wf s.mem = true → s.sp.toNat ≠ 0 →
    ∀ e ∈ [(0x48#8, Instr.pha, s.a), (0x08#8, .php, s.p)],
      opcodeOf e.2.1 = some e.1 ∧ ∃ t, exec e.2.1 s = .next t ∧
        Memory.get t.mem (0x100 + s.sp.toNat - 1) = e.2.2 ∧ SameMemoryBut [0x100 + s.sp.toNat - 1] s t ∧
        t = { s with mem := t.mem, sp := s.sp - 1, count := s.count + 1 }

/-- R221, R223 (general knowledge; all eight bits loaded is D15): with a byte on the stack PLA loads it into
A and sets N and Z from it, PLP loads it into P whole; nothing else but SP changes. -/
def Obligations.PullInstructionsComplete : Prop :=
  ∀ s : State, s.sp.toNat ≠ 0xFF →
    let v := Memory.get s.mem (0x100 + s.sp.toNat)
    opcodeOf .pla = some 0x68 ∧ opcodeOf .plp = some 0x28 ∧
    (∃ t, exec .pla s = .next t ∧ NZOf v t.p ∧ SameBitsBut [1, 7] s.p t.p ∧
      t = { s with a := v, p := t.p, sp := s.sp + 1, count := s.count + 1 }) ∧
    exec .plp s = .next { s with p := v, sp := s.sp + 1, count := s.count + 1 }

/-- R224 to R231 (general knowledge; I gates nothing by D17): each of the seven flag instructions writes its
one bit of P and nothing else; NOP changes nothing but the count of instructions. -/
def Obligations.FlagInstructionsAndNopComplete : Prop :=
  ∀ s : State,
    (∀ e ∈ [(0x18#8, Instr.clc, 0, false), (0x38#8, .sec, 0, true), (0xD8#8, .cld, 3, false),
        (0xF8#8, .sed, 3, true), (0x58#8, .cli, 2, false), (0x78#8, .sei, 2, true), (0xB8#8, .clv, 6, false)],
      opcodeOf e.2.1 = some e.1 ∧ ∃ t, exec e.2.1 s = .next t ∧ t.p.getLsbD e.2.2.1 = e.2.2.2 ∧
        SameBitsBut [e.2.2.1] s.p t.p ∧ t = { s with p := t.p, count := s.count + 1 }) ∧
    opcodeOf .nop = some 0xEA ∧ exec .nop s = .next { s with count := s.count + 1 }

/-- R232 (the spec's own choice D15, D16): with room for three bytes BRK pushes the high and low byte of
PC + 1 and P with bit 4 set, sets I, and loads PC from 0xFFFE; `P.B` and every other bit, every other byte
of memory and everything else are as they were. -/
def Obligations.BrkCompletes : Prop :=
  ∀ s : State, Memory.wf s.mem = true → 3 ≤ s.sp.toNat →
    opcodeOf .brk = some 0x00 ∧ ∃ t, exec .brk s = .next t ∧
      (Memory.get t.mem (0x100 + s.sp.toNat - 1)).toNat = (s.pc + 1).toNat / 256 ∧
      (Memory.get t.mem (0x100 + s.sp.toNat - 2)).toNat = (s.pc + 1).toNat % 256 ∧
      (∀ k, k < 8 → (Memory.get t.mem (0x100 + s.sp.toNat - 3)).getLsbD k = (decide (k = 4) || s.p.getLsbD k)) ∧
      SameMemoryBut [0x100 + s.sp.toNat - 1, 0x100 + s.sp.toNat - 2, 0x100 + s.sp.toNat - 3] s t ∧
      t.p.getLsbD 2 = true ∧ SameBitsBut [2] s.p t.p ∧
      t.pc.toNat = (Memory.get s.mem 0xFFFF).toNat * 256 + (Memory.get s.mem 0xFFFE).toNat ∧
      t = { s with mem := t.mem, sp := s.sp - 3, p := t.p, pc := t.pc, count := s.count + 1 }

/-- R233 (D15, D16): with three bytes on the stack RTI loads P whole from the first and PC from the other
two, low byte first, with nothing added; the popped cells keep their content. -/
def Obligations.RtiCompletes : Prop :=
  ∀ s : State, s.sp.toNat ≤ 0xFC →
    opcodeOf .rti = some 0x40 ∧ ∃ t, exec .rti s = .next t ∧
      t.pc.toNat = (Memory.get s.mem (0x102 + s.sp.toNat)).toNat * 256 +
        (Memory.get s.mem (0x101 + s.sp.toNat)).toNat ∧
      t = { s with p := Memory.get s.mem (0x100 + s.sp.toNat), pc := t.pc, sp := s.sp + 3, count := s.count + 1 }

/-- 60_exceptions.md R246 (the spec's own choice D13): what each stack instruction leaves when a push finds
SP = 0 or a pop finds the stack empty: Halted with that fault, the bytes already pushed and the SP already
moved, and nothing else (A, P and PC as they were). -/
def Obligations.StackFaultsKeepEarlierEffects : Prop :=
  ∀ (w : Word) (s : State), Memory.wf s.mem = true →
    (s.sp.toNat = 0 → ∀ i ∈ [Instr.pha, .php, .jsr w, .brk], exec i s = .next (halt .stackOverflow s)) ∧
    (s.sp.toNat = 1 → ∀ e ∈ [(Instr.jsr w, s.pc - 1), (.brk, s.pc + 1)],
      ∃ u, exec e.1 s = .next (halt .stackOverflow u) ∧
        (Memory.get u.mem 0x100).toNat = e.2.toNat / 256 ∧ SameMemoryBut [0x100] s u ∧
        u = { s with mem := u.mem, sp := 0 }) ∧
    (s.sp.toNat = 2 → ∃ u, exec .brk s = .next (halt .stackOverflow u) ∧
      (Memory.get u.mem 0x101).toNat = (s.pc + 1).toNat / 256 ∧
      (Memory.get u.mem 0x100).toNat = (s.pc + 1).toNat % 256 ∧ SameMemoryBut [0x100, 0x101] s u ∧
      u = { s with mem := u.mem, sp := 0 }) ∧
    (s.sp.toNat = 0xFF → ∀ i ∈ [Instr.pla, .plp], exec i s = .next (halt .stackUnderflow s)) ∧
    (0xFE ≤ s.sp.toNat → exec .rts s = .next (halt .stackUnderflow { s with sp := 0xFF })) ∧
    (0xFD ≤ s.sp.toNat → exec .rti s = .next (halt .stackUnderflow { s with sp := 0xFF }))

/-! ## Reset and the host's commands (70_reset_and_hazards.md) -/

/-- 10_state.md R28: what Reset leaves. (The instruction counter, the log trace and the model's own fields
are not in the rule: log entries 1, 2, 5, 7.) -/
def Obligations.ResetValues : Prop :=
  ∀ s : State, ∀ r ∈ [State.reset, resetCommand s],
    r.a = 0 ∧ r.x = 0 ∧ r.y = 0 ∧ r.p = 0 ∧ r.sp = Config.stackTop ∧ r.pc = Config.defaultStart ∧
    (∀ a, Memory.get r.mem a = 0) ∧ r.runningState = false ∧ r.errorState = false

/-- 70_reset_and_hazards.md R278: Run starts a Stopped core and changes nothing else; on a Running or a
Halted core it only logs one line, of its own kind for each (the kinds are log entry 7's). The other commands
of the host are in HostCommandsHaveTheirEffect. -/
def Obligations.RunCommandStartsOnlyAStoppedCore : Prop :=
  ∀ s : State,
    (s.runningState = false → s.errorState = false → runCommand s = { s with runningState := true }) ∧
    (s.runningState = true → runCommand s = { s with log := s.log ++ [.runRedundant] }) ∧
    (s.runningState = false → s.errorState = true → runCommand s = { s with log := s.log ++ [.runRejected] }) ∧
    perform .run s = .next (runCommand s)

/-- 60_exceptions.md R245, R248 (Stop in Halted is D21, Load is D22, a batch tick D20): nothing but Reset
leaves Halted: after any other command of the host, the batch tick included, the core is still Halted with
the same fault, and A, X, Y, P, SP, the sink trace and the instruction counter are as before; PC and memory
too are as before, but after a Load (R280), which may change those two. -/
def Obligations.OnlyResetLeavesHalted : Prop :=
  ∀ (c : Command) (s t : State), s.runningState = false → s.errorState = true → c ≠ .reset →
    perform c s = .next t →
    t.runningState = false ∧ t.errorState = true ∧ t.lastFault = s.lastFault ∧ t.a = s.a ∧ t.x = s.x ∧
    t.y = s.y ∧ t.p = s.p ∧ t.sp = s.sp ∧ t.sink = s.sink ∧ t.count = s.count ∧
    ((∀ start bytes, c ≠ .load start bytes) → t.pc = s.pc ∧ t.mem = s.mem)

/-- 70_reset_and_hazards.md R270, R279, R280 and 40_execution_and_addressing.md R102: what the commands of
the host beside Run do. Reset leaves the reset values with no fault recorded and the sink trace afresh, and
logs one line (kept lines, the counter and the model's own fields: log entries 1, 2, 5, 7). Stop ends Running
and changes nothing else, and in Halted changes nothing (D21). Load, in Stopped or Halted, writes the bytes
from `start` on modulo 65536, a later byte over an earlier one where more than 65536 come round, sets PC to
`start`, changes nothing else and makes no sink call (D22); while Running it is refused (U13, log entry 8).
A failed load changes nothing. The batch tick is 255 execute-one steps, one after the other. -/
def Obligations.HostCommandsHaveTheirEffect : Prop :=
  ∀ s : State,
    (∃ t, perform .reset s = .next t ∧ t.a = 0 ∧ t.x = 0 ∧ t.y = 0 ∧ t.p = 0 ∧ t.sp = Config.stackTop ∧
      t.pc = Config.defaultStart ∧ (∀ a, Memory.get t.mem a = 0) ∧ t.runningState = false ∧
      t.errorState = false ∧ t.lastFault = none ∧ t.sink = [] ∧ t.log = s.log ++ [.reset]) ∧
    (s.errorState = false → perform .stop s = .next { s with runningState := false }) ∧
    (s.errorState = true → perform .stop s = .next s) ∧
    (∀ (start : Word) (bytes : List Byte),
      (s.runningState = true → perform (.load start bytes) s = .refused .loadWhileRunning) ∧
      (s.runningState = false → Memory.wf s.mem = true → ∃ t, perform (.load start bytes) s = .next t ∧
        (∀ i b, bytes[i]? = some b → bytes.length ≤ i + 65536 →
          Memory.get t.mem ((start.toNat + i) % 65536) = b) ∧
        (∀ a, (∀ i, i < bytes.length → a ≠ (start.toNat + i) % 65536) →
          Memory.get t.mem a = Memory.get s.mem a) ∧
        t = { s with mem := t.mem, pc := start })) ∧
    perform .loadFailed s = .next s ∧
    (∃ u : Nat → State, u 0 = s ∧ (∀ k, k < 255 → step (u k) = .next (u (k + 1))) ∧
      perform .tick s = .next (u 255))
end

