-- ==== Sys2Proof/Laws/Memory.lean ====
section
/-! SUPPORT. The laws of the memory list: a read after a write, and that every memory operation keeps the
canonical form. -/

namespace Sys2Proof.Machine

@[simp] theorem Memory.get_nil (a : Nat) : Memory.get [] a = unlistedByte := rfl

/-- A write leaves every other address alone. -/
theorem Memory.get_set_ne {a b : Nat} (h : b ≠ a) (v : Byte) (m : List Host.Cell) :
    Memory.get (Memory.set m a v) b = Memory.get m b := by
  induction m with
  | nil => simp only [Memory.set]; split <;> simp [Memory.get, Ne.symm h]
  | cons c rest ih =>
    obtain ⟨k, u⟩ := c
    simp only [Memory.set]
    split
    · split
      · rfl
      · simp [Memory.get, Ne.symm h]
    · split
      · next hk => subst hk; split <;> simp [Memory.get, Ne.symm h]
      · simp [Memory.get, ih]

/-- Below the first listed address every byte reads as unlisted. -/
theorem Memory.get_below {lo a : Nat} {m : List Host.Cell} (hm : Memory.wfFrom lo m = true) (h : a < lo) :
    Memory.get m a = unlistedByte := by
  induction m generalizing lo with
  | nil => rfl
  | cons c rest ih =>
    obtain ⟨k, u⟩ := c
    simp only [Memory.wfFrom, Bool.and_eq_true, decide_eq_true_eq] at hm
    have hk : k ≠ a := by omega
    simp only [Memory.get, hk, if_false]
    exact ih hm.2 (by omega)

/-- In a canonical memory a read after a write to the same address gives the byte written. -/
theorem Memory.get_set_same {lo a : Nat} {m : List Host.Cell} (hm : Memory.wfFrom lo m = true) (v : Byte) :
    Memory.get (Memory.set m a v) a = v := by
  induction m generalizing lo with
  | nil => simp only [Memory.set]; split <;> simp_all [Memory.get]
  | cons c rest ih =>
    obtain ⟨k, u⟩ := c
    simp only [Memory.wfFrom, Bool.and_eq_true, decide_eq_true_eq] at hm
    obtain ⟨⟨⟨_, _⟩, _⟩, hr⟩ := hm
    simp only [Memory.set]
    split
    · next hlt =>
      split
      · next hv =>
        have hk : k ≠ a := by omega
        simp only [Memory.get, hk, if_false]
        rw [Memory.get_below hr (by omega), hv]
      · simp [Memory.get]
    · split
      · next hk =>
        split
        · next hv => rw [Memory.get_below hr (by omega), hv]
        · simp [Memory.get, hk]
      · next hne =>
        have hk : k ≠ a := fun e => hne e.symm
        simp only [Memory.get, hk, if_false]
        exact ih hr

/-- Reading any address after a write to a canonical memory. -/
theorem Memory.get_set {a : Nat} {m : List Host.Cell} (hm : Memory.wf m = true) (v : Byte) (b : Nat) :
    Memory.get (Memory.set m a v) b = if b = a then v else Memory.get m b := by
  split
  · next h => rw [h, Memory.get_set_same hm]
  · next h => exact Memory.get_set_ne h v m

/-- Weakening the lower bound of a canonical memory. -/
theorem Memory.wfFrom_mono {lo lo' : Nat} {m : List Host.Cell} (hm : Memory.wfFrom lo m = true) (h : lo' ≤ lo) :
    Memory.wfFrom lo' m = true := by
  cases m with
  | nil => rfl
  | cons c rest =>
    obtain ⟨k, u⟩ := c
    simp only [Memory.wfFrom, Bool.and_eq_true, decide_eq_true_eq] at hm ⊢
    exact ⟨⟨⟨by omega, hm.1.1.2⟩, hm.1.2⟩, hm.2⟩

/-- A write keeps the canonical form, from any lower bound the address respects. -/
theorem Memory.wfFrom_set {lo a : Nat} {m : List Host.Cell} (hm : Memory.wfFrom lo m = true) (ha : a < 65536)
    (hlo : lo ≤ a) (v : Byte) : Memory.wfFrom lo (Memory.set m a v) = true := by
  induction m generalizing lo with
  | nil => simp only [Memory.set]; split <;> simp_all [Memory.wfFrom]
  | cons c rest ih =>
    obtain ⟨k, u⟩ := c
    have hm' := hm
    simp only [Memory.wfFrom, Bool.and_eq_true, decide_eq_true_eq, bne_iff_ne, ne_eq] at hm
    obtain ⟨⟨⟨h1, h2⟩, h3⟩, h4⟩ := hm
    simp only [Memory.set]
    split
    · split
      · exact hm'
      · next hlt hv => simp [Memory.wfFrom, *]
    · split
      · next hk =>
        split
        · exact Memory.wfFrom_mono h4 (by omega)
        · next hv => simp [Memory.wfFrom, *]
      · next hlt hne =>
        simp only [Memory.wfFrom, Bool.and_eq_true, decide_eq_true_eq, bne_iff_ne, ne_eq]
        exact ⟨⟨⟨h1, h2⟩, h3⟩, ih h4 (by omega)⟩

/-- A write of a 16-bit address keeps the canonical form. -/
theorem Memory.wf_set {m : List Host.Cell} (hm : Memory.wf m = true) (addr : Word) (v : Byte) :
    Memory.wf (Memory.set m addr.toNat v) = true :=
  Memory.wfFrom_set hm (by have := addr.isLt; omega) (Nat.zero_le _) v

/-- MemWrite keeps the canonical form. -/
theorem memWrite_wf {s : State} (hm : Memory.wf s.mem = true) (addr : Word) (v : Byte) :
    Memory.wf (memWrite addr v s).mem = true := Memory.wf_set hm addr v

/-- A program load keeps the canonical form. -/
theorem loadBytes_wf {m : List Host.Cell} (hm : Memory.wf m = true) (addr : Word) (bs : List Byte) :
    Memory.wf (loadBytes addr bs m) = true := by
  induction bs generalizing addr m with
  | nil => exact hm
  | cons b bs ih => exact ih (Memory.wf_set hm addr b) (addr + 1)

/-- A program load leaves every address outside the written ones alone. -/
theorem loadBytes_get_ne {start : Word} {bs : List Byte} {a : Nat}
    (h : ∀ i, i < bs.length → a ≠ (start.toNat + i) % 65536) (m : List Host.Cell) :
    Memory.get (loadBytes start bs m) a = Memory.get m a := by
  induction bs generalizing start m with
  | nil => rfl
  | cons b bs ih =>
    have h0 : a ≠ start.toNat := fun e => h 0 (Nat.zero_lt_succ _) (by have := start.isLt; omega)
    refine (ih (fun i hi e => h (i + 1) (Nat.succ_lt_succ hi) ?_) _).trans (Memory.get_set_ne h0 b m)
    rw [e, BitVec.toNat_add]
    simp only [BitVec.reduceToNat]
    omega

/-- Placing an instruction keeps the canonical form. -/
theorem placeWord_wf {m : List Host.Cell} (hm : Memory.wf m = true) (addr : Word) (v : Nat) :
    Memory.wf (placeWord addr v m) = true :=
  Memory.wf_set (Memory.wf_set (Memory.wf_set hm _ _) _ _) _ _

/-- The memory of the reset state is canonical. -/
theorem State.reset_mem_wf : Memory.wf State.reset.mem = true := rfl

end Sys2Proof.Machine
end

