-- ==== Sys2Proof/Laws/State.lean ====
section
/-! SUPPORT. One lemma per field per named update of the state, each true by unfolding once, so that no
later proof unfolds a record update. -/

namespace Sys2Proof.Machine

/-! ### State.setFlag -/

@[simp] theorem State.setFlag_a (s : State) (mask : Byte) (b : Bool) : (s.setFlag mask b).a = s.a := rfl
@[simp] theorem State.setFlag_x (s : State) (mask : Byte) (b : Bool) : (s.setFlag mask b).x = s.x := rfl
@[simp] theorem State.setFlag_y (s : State) (mask : Byte) (b : Bool) : (s.setFlag mask b).y = s.y := rfl
@[simp] theorem State.setFlag_p (s : State) (mask : Byte) (b : Bool) :
    (s.setFlag mask b).p = Machine.setFlag mask b s.p := rfl
@[simp] theorem State.setFlag_sp (s : State) (mask : Byte) (b : Bool) : (s.setFlag mask b).sp = s.sp := rfl
@[simp] theorem State.setFlag_pc (s : State) (mask : Byte) (b : Bool) : (s.setFlag mask b).pc = s.pc := rfl
@[simp] theorem State.setFlag_mem (s : State) (mask : Byte) (b : Bool) : (s.setFlag mask b).mem = s.mem := rfl
@[simp] theorem State.setFlag_runningState (s : State) (mask : Byte) (b : Bool) :
    (s.setFlag mask b).runningState = s.runningState := rfl
@[simp] theorem State.setFlag_errorState (s : State) (mask : Byte) (b : Bool) :
    (s.setFlag mask b).errorState = s.errorState := rfl
@[simp] theorem State.setFlag_lastFault (s : State) (mask : Byte) (b : Bool) :
    (s.setFlag mask b).lastFault = s.lastFault := rfl
@[simp] theorem State.setFlag_count (s : State) (mask : Byte) (b : Bool) : (s.setFlag mask b).count = s.count := rfl
@[simp] theorem State.setFlag_sink (s : State) (mask : Byte) (b : Bool) : (s.setFlag mask b).sink = s.sink := rfl
@[simp] theorem State.setFlag_log (s : State) (mask : Byte) (b : Bool) : (s.setFlag mask b).log = s.log := rfl
@[simp] theorem State.setFlag_rngAddr (s : State) (mask : Byte) (b : Bool) :
    (s.setFlag mask b).rngAddr = s.rngAddr := rfl
@[simp] theorem State.setFlag_draws (s : State) (mask : Byte) (b : Bool) : (s.setFlag mask b).draws = s.draws := rfl

/-! ### setNZ -/

@[simp] theorem setNZ_a (v : Byte) (s : State) : (setNZ v s).a = s.a := rfl
@[simp] theorem setNZ_x (v : Byte) (s : State) : (setNZ v s).x = s.x := rfl
@[simp] theorem setNZ_y (v : Byte) (s : State) : (setNZ v s).y = s.y := rfl
@[simp] theorem setNZ_p (v : Byte) (s : State) : (setNZ v s).p = nzBits v s.p := rfl
@[simp] theorem setNZ_sp (v : Byte) (s : State) : (setNZ v s).sp = s.sp := rfl
@[simp] theorem setNZ_pc (v : Byte) (s : State) : (setNZ v s).pc = s.pc := rfl
@[simp] theorem setNZ_mem (v : Byte) (s : State) : (setNZ v s).mem = s.mem := rfl
@[simp] theorem setNZ_runningState (v : Byte) (s : State) : (setNZ v s).runningState = s.runningState := rfl
@[simp] theorem setNZ_errorState (v : Byte) (s : State) : (setNZ v s).errorState = s.errorState := rfl
@[simp] theorem setNZ_lastFault (v : Byte) (s : State) : (setNZ v s).lastFault = s.lastFault := rfl
@[simp] theorem setNZ_count (v : Byte) (s : State) : (setNZ v s).count = s.count := rfl
@[simp] theorem setNZ_sink (v : Byte) (s : State) : (setNZ v s).sink = s.sink := rfl
@[simp] theorem setNZ_log (v : Byte) (s : State) : (setNZ v s).log = s.log := rfl
@[simp] theorem setNZ_rngAddr (v : Byte) (s : State) : (setNZ v s).rngAddr = s.rngAddr := rfl
@[simp] theorem setNZ_draws (v : Byte) (s : State) : (setNZ v s).draws = s.draws := rfl

/-! ### compare -/

@[simp] theorem compare_a (r m : Byte) (s : State) : (compare r m s).a = s.a := rfl
@[simp] theorem compare_x (r m : Byte) (s : State) : (compare r m s).x = s.x := rfl
@[simp] theorem compare_y (r m : Byte) (s : State) : (compare r m s).y = s.y := rfl
@[simp] theorem compare_p (r m : Byte) (s : State) :
    (compare r m s).p = nzBits (r - m) (Machine.setFlag maskC (compareCarry r m) s.p) := rfl
@[simp] theorem compare_sp (r m : Byte) (s : State) : (compare r m s).sp = s.sp := rfl
@[simp] theorem compare_pc (r m : Byte) (s : State) : (compare r m s).pc = s.pc := rfl
@[simp] theorem compare_mem (r m : Byte) (s : State) : (compare r m s).mem = s.mem := rfl
@[simp] theorem compare_runningState (r m : Byte) (s : State) : (compare r m s).runningState = s.runningState := rfl
@[simp] theorem compare_errorState (r m : Byte) (s : State) : (compare r m s).errorState = s.errorState := rfl
@[simp] theorem compare_lastFault (r m : Byte) (s : State) : (compare r m s).lastFault = s.lastFault := rfl
@[simp] theorem compare_count (r m : Byte) (s : State) : (compare r m s).count = s.count := rfl
@[simp] theorem compare_sink (r m : Byte) (s : State) : (compare r m s).sink = s.sink := rfl
@[simp] theorem compare_log (r m : Byte) (s : State) : (compare r m s).log = s.log := rfl
@[simp] theorem compare_rngAddr (r m : Byte) (s : State) : (compare r m s).rngAddr = s.rngAddr := rfl
@[simp] theorem compare_draws (r m : Byte) (s : State) : (compare r m s).draws = s.draws := rfl

/-! ### aluResult -/

@[simp] theorem aluResult_a (r : Alu) (s : State) : (aluResult r s).a = r.result := rfl
@[simp] theorem aluResult_x (r : Alu) (s : State) : (aluResult r s).x = s.x := rfl
@[simp] theorem aluResult_y (r : Alu) (s : State) : (aluResult r s).y = s.y := rfl
@[simp] theorem aluResult_p (r : Alu) (s : State) :
    (aluResult r s).p = nzBits r.result (Machine.setFlag maskC r.carry (Machine.setFlag maskV r.overflow s.p)) := rfl
@[simp] theorem aluResult_sp (r : Alu) (s : State) : (aluResult r s).sp = s.sp := rfl
@[simp] theorem aluResult_pc (r : Alu) (s : State) : (aluResult r s).pc = s.pc := rfl
@[simp] theorem aluResult_mem (r : Alu) (s : State) : (aluResult r s).mem = s.mem := rfl
@[simp] theorem aluResult_runningState (r : Alu) (s : State) : (aluResult r s).runningState = s.runningState := rfl
@[simp] theorem aluResult_errorState (r : Alu) (s : State) : (aluResult r s).errorState = s.errorState := rfl
@[simp] theorem aluResult_lastFault (r : Alu) (s : State) : (aluResult r s).lastFault = s.lastFault := rfl
@[simp] theorem aluResult_count (r : Alu) (s : State) : (aluResult r s).count = s.count := rfl
@[simp] theorem aluResult_sink (r : Alu) (s : State) : (aluResult r s).sink = s.sink := rfl
@[simp] theorem aluResult_log (r : Alu) (s : State) : (aluResult r s).log = s.log := rfl
@[simp] theorem aluResult_rngAddr (r : Alu) (s : State) : (aluResult r s).rngAddr = s.rngAddr := rfl
@[simp] theorem aluResult_draws (r : Alu) (s : State) : (aluResult r s).draws = s.draws := rfl

/-! ### memWrite -/

@[simp] theorem memWrite_a (addr : Word) (v : Byte) (s : State) : (memWrite addr v s).a = s.a := rfl
@[simp] theorem memWrite_x (addr : Word) (v : Byte) (s : State) : (memWrite addr v s).x = s.x := rfl
@[simp] theorem memWrite_y (addr : Word) (v : Byte) (s : State) : (memWrite addr v s).y = s.y := rfl
@[simp] theorem memWrite_p (addr : Word) (v : Byte) (s : State) : (memWrite addr v s).p = s.p := rfl
@[simp] theorem memWrite_sp (addr : Word) (v : Byte) (s : State) : (memWrite addr v s).sp = s.sp := rfl
@[simp] theorem memWrite_pc (addr : Word) (v : Byte) (s : State) : (memWrite addr v s).pc = s.pc := rfl
@[simp] theorem memWrite_mem (addr : Word) (v : Byte) (s : State) :
    (memWrite addr v s).mem = Memory.set s.mem addr.toNat v := rfl
@[simp] theorem memWrite_runningState (addr : Word) (v : Byte) (s : State) :
    (memWrite addr v s).runningState = s.runningState := rfl
@[simp] theorem memWrite_errorState (addr : Word) (v : Byte) (s : State) :
    (memWrite addr v s).errorState = s.errorState := rfl
@[simp] theorem memWrite_lastFault (addr : Word) (v : Byte) (s : State) :
    (memWrite addr v s).lastFault = s.lastFault := rfl
@[simp] theorem memWrite_count (addr : Word) (v : Byte) (s : State) : (memWrite addr v s).count = s.count := rfl
@[simp] theorem memWrite_sink (addr : Word) (v : Byte) (s : State) :
    (memWrite addr v s).sink = if inDisplay addr then s.sink ++ [(addr, v)] else s.sink := rfl
@[simp] theorem memWrite_log (addr : Word) (v : Byte) (s : State) : (memWrite addr v s).log = s.log := rfl
@[simp] theorem memWrite_rngAddr (addr : Word) (v : Byte) (s : State) : (memWrite addr v s).rngAddr = s.rngAddr := rfl
@[simp] theorem memWrite_draws (addr : Word) (v : Byte) (s : State) : (memWrite addr v s).draws = s.draws := rfl

/-! ### halt -/

@[simp] theorem halt_a (f : Fault) (s : State) : (halt f s).a = s.a := rfl
@[simp] theorem halt_x (f : Fault) (s : State) : (halt f s).x = s.x := rfl
@[simp] theorem halt_y (f : Fault) (s : State) : (halt f s).y = s.y := rfl
@[simp] theorem halt_p (f : Fault) (s : State) : (halt f s).p = s.p := rfl
@[simp] theorem halt_sp (f : Fault) (s : State) : (halt f s).sp = s.sp := rfl
@[simp] theorem halt_pc (f : Fault) (s : State) : (halt f s).pc = s.pc := rfl
@[simp] theorem halt_mem (f : Fault) (s : State) : (halt f s).mem = s.mem := rfl
@[simp] theorem halt_runningState (f : Fault) (s : State) : (halt f s).runningState = false := rfl
@[simp] theorem halt_errorState (f : Fault) (s : State) : (halt f s).errorState = true := rfl
@[simp] theorem halt_lastFault (f : Fault) (s : State) : (halt f s).lastFault = some f := rfl
@[simp] theorem halt_count (f : Fault) (s : State) : (halt f s).count = s.count := rfl
@[simp] theorem halt_sink (f : Fault) (s : State) : (halt f s).sink = s.sink := rfl
@[simp] theorem halt_log (f : Fault) (s : State) : (halt f s).log = s.log ++ [.halt f] := rfl
@[simp] theorem halt_rngAddr (f : Fault) (s : State) : (halt f s).rngAddr = s.rngAddr := rfl
@[simp] theorem halt_draws (f : Fault) (s : State) : (halt f s).draws = s.draws := rfl

/-! ### The state after memRead: every field but the count of draws as before -/

@[simp] theorem memRead_a (addr : Word) (s : State) : (memRead addr s).2.a = s.a := by unfold memRead; split <;> rfl
@[simp] theorem memRead_x (addr : Word) (s : State) : (memRead addr s).2.x = s.x := by unfold memRead; split <;> rfl
@[simp] theorem memRead_y (addr : Word) (s : State) : (memRead addr s).2.y = s.y := by unfold memRead; split <;> rfl
@[simp] theorem memRead_p (addr : Word) (s : State) : (memRead addr s).2.p = s.p := by unfold memRead; split <;> rfl
@[simp] theorem memRead_sp (addr : Word) (s : State) : (memRead addr s).2.sp = s.sp := by unfold memRead; split <;> rfl
@[simp] theorem memRead_pc (addr : Word) (s : State) : (memRead addr s).2.pc = s.pc := by unfold memRead; split <;> rfl
@[simp] theorem memRead_mem (addr : Word) (s : State) : (memRead addr s).2.mem = s.mem := by unfold memRead; split <;> rfl
@[simp] theorem memRead_runningState (addr : Word) (s : State) : (memRead addr s).2.runningState = s.runningState := by unfold memRead; split <;> rfl
@[simp] theorem memRead_errorState (addr : Word) (s : State) : (memRead addr s).2.errorState = s.errorState := by unfold memRead; split <;> rfl
@[simp] theorem memRead_lastFault (addr : Word) (s : State) : (memRead addr s).2.lastFault = s.lastFault := by unfold memRead; split <;> rfl
@[simp] theorem memRead_count (addr : Word) (s : State) : (memRead addr s).2.count = s.count := by unfold memRead; split <;> rfl
@[simp] theorem memRead_sink (addr : Word) (s : State) : (memRead addr s).2.sink = s.sink := by unfold memRead; split <;> rfl
@[simp] theorem memRead_log (addr : Word) (s : State) : (memRead addr s).2.log = s.log := by unfold memRead; split <;> rfl
@[simp] theorem memRead_rngAddr (addr : Word) (s : State) : (memRead addr s).2.rngAddr = s.rngAddr := by unfold memRead; split <;> rfl

/-! ### The state after readWord: every field but the count of draws as before -/

@[simp] theorem readWord_a (addr : Word) (s : State) : (readWord addr s).2.a = s.a := (memRead_a _ _).trans (memRead_a _ _)
@[simp] theorem readWord_x (addr : Word) (s : State) : (readWord addr s).2.x = s.x := (memRead_x _ _).trans (memRead_x _ _)
@[simp] theorem readWord_y (addr : Word) (s : State) : (readWord addr s).2.y = s.y := (memRead_y _ _).trans (memRead_y _ _)
@[simp] theorem readWord_p (addr : Word) (s : State) : (readWord addr s).2.p = s.p := (memRead_p _ _).trans (memRead_p _ _)
@[simp] theorem readWord_sp (addr : Word) (s : State) : (readWord addr s).2.sp = s.sp := (memRead_sp _ _).trans (memRead_sp _ _)
@[simp] theorem readWord_pc (addr : Word) (s : State) : (readWord addr s).2.pc = s.pc := (memRead_pc _ _).trans (memRead_pc _ _)
@[simp] theorem readWord_mem (addr : Word) (s : State) : (readWord addr s).2.mem = s.mem := (memRead_mem _ _).trans (memRead_mem _ _)
@[simp] theorem readWord_runningState (addr : Word) (s : State) : (readWord addr s).2.runningState = s.runningState := (memRead_runningState _ _).trans (memRead_runningState _ _)
@[simp] theorem readWord_errorState (addr : Word) (s : State) : (readWord addr s).2.errorState = s.errorState := (memRead_errorState _ _).trans (memRead_errorState _ _)
@[simp] theorem readWord_lastFault (addr : Word) (s : State) : (readWord addr s).2.lastFault = s.lastFault := (memRead_lastFault _ _).trans (memRead_lastFault _ _)
@[simp] theorem readWord_count (addr : Word) (s : State) : (readWord addr s).2.count = s.count := (memRead_count _ _).trans (memRead_count _ _)
@[simp] theorem readWord_sink (addr : Word) (s : State) : (readWord addr s).2.sink = s.sink := (memRead_sink _ _).trans (memRead_sink _ _)
@[simp] theorem readWord_log (addr : Word) (s : State) : (readWord addr s).2.log = s.log := (memRead_log _ _).trans (memRead_log _ _)
@[simp] theorem readWord_rngAddr (addr : Word) (s : State) : (readWord addr s).2.rngAddr = s.rngAddr := (memRead_rngAddr _ _).trans (memRead_rngAddr _ _)

/-! ### The state after resolve: every field but the count of draws as before -/

@[simp] theorem resolve_a (m : Address) (s : State) : (m.resolve s).2.a = s.a := by cases m <;> first | rfl | exact readWord_a _ _
@[simp] theorem resolve_x (m : Address) (s : State) : (m.resolve s).2.x = s.x := by cases m <;> first | rfl | exact readWord_x _ _
@[simp] theorem resolve_y (m : Address) (s : State) : (m.resolve s).2.y = s.y := by cases m <;> first | rfl | exact readWord_y _ _
@[simp] theorem resolve_p (m : Address) (s : State) : (m.resolve s).2.p = s.p := by cases m <;> first | rfl | exact readWord_p _ _
@[simp] theorem resolve_sp (m : Address) (s : State) : (m.resolve s).2.sp = s.sp := by cases m <;> first | rfl | exact readWord_sp _ _
@[simp] theorem resolve_pc (m : Address) (s : State) : (m.resolve s).2.pc = s.pc := by cases m <;> first | rfl | exact readWord_pc _ _
@[simp] theorem resolve_mem (m : Address) (s : State) : (m.resolve s).2.mem = s.mem := by cases m <;> first | rfl | exact readWord_mem _ _
@[simp] theorem resolve_runningState (m : Address) (s : State) : (m.resolve s).2.runningState = s.runningState := by cases m <;> first | rfl | exact readWord_runningState _ _
@[simp] theorem resolve_errorState (m : Address) (s : State) : (m.resolve s).2.errorState = s.errorState := by cases m <;> first | rfl | exact readWord_errorState _ _
@[simp] theorem resolve_lastFault (m : Address) (s : State) : (m.resolve s).2.lastFault = s.lastFault := by cases m <;> first | rfl | exact readWord_lastFault _ _
@[simp] theorem resolve_count (m : Address) (s : State) : (m.resolve s).2.count = s.count := by cases m <;> first | rfl | exact readWord_count _ _
@[simp] theorem resolve_sink (m : Address) (s : State) : (m.resolve s).2.sink = s.sink := by cases m <;> first | rfl | exact readWord_sink _ _
@[simp] theorem resolve_log (m : Address) (s : State) : (m.resolve s).2.log = s.log := by cases m <;> first | rfl | exact readWord_log _ _
@[simp] theorem resolve_rngAddr (m : Address) (s : State) : (m.resolve s).2.rngAddr = s.rngAddr := by cases m <;> first | rfl | exact readWord_rngAddr _ _

/-! ### The state after readOperand: every field but the count of draws as before -/

@[simp] theorem readOperand_a (src : Source) (s : State) : (readOperand src s).2.a = s.a := by cases src with
  | immediate b => rfl
  | memory m => exact (memRead_a _ _).trans (resolve_a m s)
@[simp] theorem readOperand_x (src : Source) (s : State) : (readOperand src s).2.x = s.x := by cases src with
  | immediate b => rfl
  | memory m => exact (memRead_x _ _).trans (resolve_x m s)
@[simp] theorem readOperand_y (src : Source) (s : State) : (readOperand src s).2.y = s.y := by cases src with
  | immediate b => rfl
  | memory m => exact (memRead_y _ _).trans (resolve_y m s)
@[simp] theorem readOperand_p (src : Source) (s : State) : (readOperand src s).2.p = s.p := by cases src with
  | immediate b => rfl
  | memory m => exact (memRead_p _ _).trans (resolve_p m s)
@[simp] theorem readOperand_sp (src : Source) (s : State) : (readOperand src s).2.sp = s.sp := by cases src with
  | immediate b => rfl
  | memory m => exact (memRead_sp _ _).trans (resolve_sp m s)
@[simp] theorem readOperand_pc (src : Source) (s : State) : (readOperand src s).2.pc = s.pc := by cases src with
  | immediate b => rfl
  | memory m => exact (memRead_pc _ _).trans (resolve_pc m s)
@[simp] theorem readOperand_mem (src : Source) (s : State) : (readOperand src s).2.mem = s.mem := by cases src with
  | immediate b => rfl
  | memory m => exact (memRead_mem _ _).trans (resolve_mem m s)
@[simp] theorem readOperand_runningState (src : Source) (s : State) : (readOperand src s).2.runningState = s.runningState := by cases src with
  | immediate b => rfl
  | memory m => exact (memRead_runningState _ _).trans (resolve_runningState m s)
@[simp] theorem readOperand_errorState (src : Source) (s : State) : (readOperand src s).2.errorState = s.errorState := by cases src with
  | immediate b => rfl
  | memory m => exact (memRead_errorState _ _).trans (resolve_errorState m s)
@[simp] theorem readOperand_lastFault (src : Source) (s : State) : (readOperand src s).2.lastFault = s.lastFault := by cases src with
  | immediate b => rfl
  | memory m => exact (memRead_lastFault _ _).trans (resolve_lastFault m s)
@[simp] theorem readOperand_count (src : Source) (s : State) : (readOperand src s).2.count = s.count := by cases src with
  | immediate b => rfl
  | memory m => exact (memRead_count _ _).trans (resolve_count m s)
@[simp] theorem readOperand_sink (src : Source) (s : State) : (readOperand src s).2.sink = s.sink := by cases src with
  | immediate b => rfl
  | memory m => exact (memRead_sink _ _).trans (resolve_sink m s)
@[simp] theorem readOperand_log (src : Source) (s : State) : (readOperand src s).2.log = s.log := by cases src with
  | immediate b => rfl
  | memory m => exact (memRead_log _ _).trans (resolve_log m s)
@[simp] theorem readOperand_rngAddr (src : Source) (s : State) : (readOperand src s).2.rngAddr = s.rngAddr := by cases src with
  | immediate b => rfl
  | memory m => exact (memRead_rngAddr _ _).trans (resolve_rngAddr m s)

/-! ### The state after storeAt: every field but memory, sink and draws as before -/

@[simp] theorem storeAt_a (m : Address) (v : Byte) (s : State) : (storeAt m v s).a = s.a := by simp [storeAt]
@[simp] theorem storeAt_x (m : Address) (v : Byte) (s : State) : (storeAt m v s).x = s.x := by simp [storeAt]
@[simp] theorem storeAt_y (m : Address) (v : Byte) (s : State) : (storeAt m v s).y = s.y := by simp [storeAt]
@[simp] theorem storeAt_p (m : Address) (v : Byte) (s : State) : (storeAt m v s).p = s.p := by simp [storeAt]
@[simp] theorem storeAt_sp (m : Address) (v : Byte) (s : State) : (storeAt m v s).sp = s.sp := by simp [storeAt]
@[simp] theorem storeAt_pc (m : Address) (v : Byte) (s : State) : (storeAt m v s).pc = s.pc := by simp [storeAt]
@[simp] theorem storeAt_runningState (m : Address) (v : Byte) (s : State) : (storeAt m v s).runningState = s.runningState := by simp [storeAt]
@[simp] theorem storeAt_errorState (m : Address) (v : Byte) (s : State) : (storeAt m v s).errorState = s.errorState := by simp [storeAt]
@[simp] theorem storeAt_lastFault (m : Address) (v : Byte) (s : State) : (storeAt m v s).lastFault = s.lastFault := by simp [storeAt]
@[simp] theorem storeAt_count (m : Address) (v : Byte) (s : State) : (storeAt m v s).count = s.count := by simp [storeAt]
@[simp] theorem storeAt_log (m : Address) (v : Byte) (s : State) : (storeAt m v s).log = s.log := by simp [storeAt]
@[simp] theorem storeAt_rngAddr (m : Address) (v : Byte) (s : State) : (storeAt m v s).rngAddr = s.rngAddr := by simp [storeAt]

/-! ### The state after modify: every field but memory, sink and draws as before -/

@[simp] theorem modify_a (m : Address) (f : Byte → Byte) (s : State) : (modify m f s).2.a = s.a := by simp [modify]
@[simp] theorem modify_x (m : Address) (f : Byte → Byte) (s : State) : (modify m f s).2.x = s.x := by simp [modify]
@[simp] theorem modify_y (m : Address) (f : Byte → Byte) (s : State) : (modify m f s).2.y = s.y := by simp [modify]
@[simp] theorem modify_p (m : Address) (f : Byte → Byte) (s : State) : (modify m f s).2.p = s.p := by simp [modify]
@[simp] theorem modify_sp (m : Address) (f : Byte → Byte) (s : State) : (modify m f s).2.sp = s.sp := by simp [modify]
@[simp] theorem modify_pc (m : Address) (f : Byte → Byte) (s : State) : (modify m f s).2.pc = s.pc := by simp [modify]
@[simp] theorem modify_runningState (m : Address) (f : Byte → Byte) (s : State) : (modify m f s).2.runningState = s.runningState := by simp [modify]
@[simp] theorem modify_errorState (m : Address) (f : Byte → Byte) (s : State) : (modify m f s).2.errorState = s.errorState := by simp [modify]
@[simp] theorem modify_lastFault (m : Address) (f : Byte → Byte) (s : State) : (modify m f s).2.lastFault = s.lastFault := by simp [modify]
@[simp] theorem modify_count (m : Address) (f : Byte → Byte) (s : State) : (modify m f s).2.count = s.count := by simp [modify]
@[simp] theorem modify_log (m : Address) (f : Byte → Byte) (s : State) : (modify m f s).2.log = s.log := by simp [modify]
@[simp] theorem modify_rngAddr (m : Address) (f : Byte → Byte) (s : State) : (modify m f s).2.rngAddr = s.rngAddr := by simp [modify]

end Sys2Proof.Machine
end

