-- ==== Sys2Proof/Laws/Ops.lean ====
section
/-! SUPPORT. One lemma per shared operation that says everything it can do: the ports, the stack, the
end of an instruction, the fetch and the addressing modes. -/

namespace Sys2Proof.Machine

/-! ## Bytes and words -/

/-- A word from its bytes, as a number (00_scope.md R4). -/
theorem wordOf_toNat (lo hi : Byte) : (wordOf lo hi).toNat = hi.toNat * 256 + lo.toNat := by
  have := lo.isLt
  show (hi ++ lo).toNat = _
  rw [BitVec.toNat_append, ← Nat.shiftLeft_add_eq_or_of_lt this, Nat.shiftLeft_eq]

theorem lowByte_toNat (w : Word) : (lowByte w).toNat = w.toNat % 256 := by simp [lowByte]

theorem highByte_toNat (w : Word) : (highByte w).toNat = w.toNat / 256 := by
  have := w.isLt
  simp [highByte, Nat.shiftRight_eq_div_pow]
  omega

/-- A word is made of its own two bytes. -/
theorem wordOf_bytes (w : Word) : wordOf (lowByte w) (highByte w) = w := by
  apply BitVec.eq_of_toNat_eq
  rw [wordOf_toNat, lowByte_toNat, highByte_toNat]
  omega

/-- A 16-bit operand from its bytes, as a number (30_encoding.md R73). -/
theorem operandWord_toNat (lo hi : Byte) : (operandWord lo hi).toNat = hi.toNat * 256 + lo.toNat :=
  wordOf_toNat lo hi

/-- A 16-bit operand is made of its own two bytes (30_encoding.md R73). -/
theorem operandWord_bytes (w : Word) : operandWord (w.setWidth 8) ((w >>> 8).setWidth 8) = w := wordOf_bytes w

/-- The bytes of a 16-bit operand made of two bytes. -/
theorem operandBytes_operandWord (lo hi : Byte) : operandBytes (operandWord lo hi) = [lo, hi] := by
  have h1 : lowByte (operandWord lo hi) = lo := by
    apply BitVec.eq_of_toNat_eq
    rw [lowByte_toNat, operandWord_toNat]
    have := lo.isLt
    omega
  have h2 : highByte (operandWord lo hi) = hi := by
    apply BitVec.eq_of_toNat_eq
    rw [highByte_toNat, operandWord_toNat]
    have := lo.isLt
    omega
  show [lowByte _, highByte _] = _
  rw [h1, h2]

/-! ## The ports -/

/-- Two states that differ at most in how many tap reads have been made, the second having made no
fewer. -/
def OnlyDraws (s t : State) : Prop := t = { s with draws := t.draws } ∧ s.draws ≤ t.draws

theorem OnlyDraws.refl (s : State) : OnlyDraws s s := ⟨rfl, Nat.le_refl _⟩

theorem OnlyDraws.trans {s t u : State} (h : OnlyDraws s t) (k : OnlyDraws t u) : OnlyDraws s u := by
  obtain ⟨h1, h2⟩ := h
  obtain ⟨k1, k2⟩ := k
  refine ⟨?_, Nat.le_trans h2 k2⟩
  rw [k1, h1]

/-- An address outside the zero page is not the tap. -/
theorem isTap_of_le {addr : Word} (h : 256 ≤ addr.toNat) (s : State) : s.isTap addr = false := by
  simp [State.isTap, Nat.not_lt.mpr h]

/-- The tap is the one address RNG_ADDR. -/
theorem isTap_iff (addr : Word) (s : State) : s.isTap addr = true ↔ addr.toNat = s.rngAddr.toNat := by
  have h1 := addr.isLt
  have h2 := s.rngAddr.isLt
  simp only [State.isTap, Bool.and_eq_true, decide_eq_true_eq, beq_iff_eq, ← BitVec.toNat_inj,
    BitVec.toNat_setWidth]
  omega

theorem isTap_eq_false_iff (addr : Word) (s : State) : s.isTap addr = false ↔ addr.toNat ≠ s.rngAddr.toNat := by
  rw [← Bool.not_eq_true, isTap_iff, ne_eq]

/-- MemRead elsewhere than at the tap reads the stored byte and changes nothing. -/
theorem memRead_stored {addr : Word} {s : State} (h : s.isTap addr = false) :
    memRead addr s = (Memory.get s.mem addr.toNat, s) := by simp [memRead, h]

/-- MemRead at the tap is the next draw. -/
theorem memRead_tap {addr : Word} {s : State} (h : s.isTap addr = true) :
    memRead addr s = (Config.draw s.draws, { s with draws := s.draws + 1 }) := by simp [memRead, h]

/-- MemRead changes nothing but the count of draws. -/
theorem memRead_onlyDraws (addr : Word) (s : State) : OnlyDraws s (memRead addr s).2 := by
  unfold memRead
  split
  · exact ⟨rfl, Nat.le_succ _⟩
  · exact OnlyDraws.refl s

/-- ReadWord changes nothing but the count of draws. -/
theorem readWord_onlyDraws (addr : Word) (s : State) : OnlyDraws s (readWord addr s).2 :=
  (memRead_onlyDraws addr s).trans (memRead_onlyDraws (addr + 1) _)

/-- ReadWord of two cells neither of which is the tap. -/
theorem readWord_stored {addr : Word} {s : State} (h : s.isTap addr = false) (h' : s.isTap (addr + 1) = false) :
    readWord addr s = (wordOf (Memory.get s.mem addr.toNat) (Memory.get s.mem (addr + 1).toNat), s) := by
  unfold readWord
  rw [memRead_stored h]
  simp only
  rw [memRead_stored h']

theorem inDisplay_iff (addr : Word) : inDisplay addr = decide (0xFC00 ≤ addr.toNat) := by
  have := addr.isLt
  simp only [inDisplay, Config.displayBase, Config.displayTop, BitVec.le_def]
  simp
  omega

/-! ## The effective addresses -/

/-- Resolving an address changes nothing but the count of draws. -/
theorem Address.resolve_onlyDraws (m : Address) (s : State) : OnlyDraws s (m.resolve s).2 := by
  cases m <;>
    first
    | exact OnlyDraws.refl s
    | exact readWord_onlyDraws _ _

/-- Reading an operand changes nothing but the count of draws. -/
theorem readOperand_onlyDraws (src : Source) (s : State) : OnlyDraws s (readOperand src s).2 := by
  cases src with
  | immediate b => exact OnlyDraws.refl s
  | memory m => exact (m.resolve_onlyDraws s).trans (memRead_onlyDraws _ _)

/-- A store is one MemWrite after the address is resolved. -/
theorem storeAt_eq (m : Address) (v : Byte) (s : State) :
    storeAt m v s = memWrite (m.resolve s).1 v (m.resolve s).2 := rfl

/-- Modify is one MemRead and one MemWrite of the resolved address. -/
theorem modify_eq (m : Address) (f : Byte → Byte) (s : State) :
    modify m f s =
      (((memRead (m.resolve s).1 (m.resolve s).2).1, f (memRead (m.resolve s).1 (m.resolve s).2).1),
        memWrite (m.resolve s).1 (f (memRead (m.resolve s).1 (m.resolve s).2).1)
          (memRead (m.resolve s).1 (m.resolve s).2).2) := rfl

/-! ## The stack -/

/-- The address of a stack cell as a number. -/
theorem stackAddr_toNat (sp : Byte) : (stackAddr sp).toNat = 0x100 + sp.toNat := by
  have := sp.isLt
  simp [stackAddr, Config.stackBase, zext16]
  omega

/-- No stack cell is the tap. -/
theorem isTap_stackAddr (sp : Byte) (s : State) : s.isTap (stackAddr sp) = false :=
  isTap_of_le (by rw [stackAddr_toNat]; omega) s

/-- No stack cell lies in the display window. -/
theorem inDisplay_stackAddr (sp : Byte) : inDisplay (stackAddr sp) = false := by
  have := sp.isLt
  rw [inDisplay_iff, stackAddr_toNat]
  simp
  omega

/-- What Push can do: raise with nothing changed, or store one byte under the old SP. -/
theorem push_cases (v : Byte) (s : State) :
    (s.sp = 0#8 ∧ push v s = .raise .stackOverflow s) ∨
    (s.sp ≠ 0#8 ∧ push v s =
      .ok () { s with sp := s.sp - 1, mem := Memory.set s.mem (stackAddr (s.sp - 1)).toNat v }) := by
  by_cases h : s.sp = 0#8
  · exact .inl ⟨h, by simp [push, h]⟩
  · exact .inr ⟨h, by simp [push, h, memWrite, inDisplay_stackAddr]⟩

theorem stackTop_le_iff (sp : Byte) : Config.stackTop ≤ sp ↔ sp = 0xFF#8 := by
  have := sp.isLt
  simp only [Config.stackTop, BitVec.le_def, ← BitVec.toNat_inj]
  simp
  omega

/-- What Pop can do: raise with nothing changed, or read the cell SP designates and raise SP. -/
theorem pop_cases (s : State) :
    (s.sp = 0xFF#8 ∧ pop s = .raise .stackUnderflow s) ∨
    (s.sp ≠ 0xFF#8 ∧ pop s = .ok (Memory.get s.mem (stackAddr s.sp).toNat) { s with sp := s.sp + 1 }) := by
  by_cases h : s.sp = 0xFF#8
  · exact .inl ⟨h, by simp [pop, (stackTop_le_iff s.sp).2 h]⟩
  · have hn : ¬Config.stackTop ≤ s.sp := fun k => h ((stackTop_le_iff s.sp).1 k)
    exact .inr ⟨h, by simp [pop, hn, memRead_stored (isTap_stackAddr s.sp s)]⟩

@[simp] theorem Res.andThen_ok {α β : Type} (v : α) (s : State) (k : α → State → Res β) :
    (Res.ok v s).andThen k = k v s := rfl

@[simp] theorem Res.andThen_raise {α β : Type} (f : Fault) (s : State) (k : α → State → Res β) :
    (Res.raise f s : Res α).andThen k = .raise f s := rfl

/-- What pushing a word can do: raise at the first or at the second byte, or store both bytes under the old
SP, the high byte above the low byte. -/
theorem pushWord_cases (w : Word) (s : State) :
    (s.sp = 0#8 ∧ pushWord w s = .raise .stackOverflow s) ∨
    (s.sp = 1#8 ∧ pushWord w s =
      .raise .stackOverflow { s with sp := 0, mem := Memory.set s.mem 0x100 (highByte w) }) ∨
    (2 ≤ s.sp.toNat ∧ pushWord w s =
      .ok () { s with
        sp := s.sp - 2
        mem := Memory.set (Memory.set s.mem (0x100 + s.sp.toNat - 1) (highByte w)) (0x100 + s.sp.toNat - 2)
          (lowByte w) }) := by
  unfold pushWord
  rcases push_cases (highByte w) s with ⟨h0, h⟩ | ⟨h0, h⟩ <;> rw [h]
  · exact .inl ⟨h0, rfl⟩
  · simp only [Res.andThen_ok]
    rcases push_cases (lowByte w) { s with
        sp := s.sp - 1, mem := Memory.set s.mem (stackAddr (s.sp - 1)).toNat (highByte w) } with
      ⟨h1, h⟩ | ⟨h1, h⟩ <;> rw [h] <;> simp only at h1
    · have e : s.sp = 1#8 := by bv_omega
      exact .inr (.inl ⟨e, by simp [e, stackAddr_toNat]⟩)
    · refine .inr (.inr ⟨by bv_omega, ?_⟩)
      have e1 : (stackAddr (s.sp - 1)).toNat = 0x100 + s.sp.toNat - 1 := by rw [stackAddr_toNat]; bv_omega
      have e2 : (stackAddr (s.sp - 1 - 1)).toNat = 0x100 + s.sp.toNat - 2 := by rw [stackAddr_toNat]; bv_omega
      have e3 : s.sp - 1 - 1 = s.sp - 2 := by bv_omega
      show Res.ok () { s with
        sp := s.sp - 1 - 1
        mem := Memory.set (Memory.set s.mem (stackAddr (s.sp - 1)).toNat (highByte w))
          (stackAddr (s.sp - 1 - 1)).toNat (lowByte w) } = _
      rw [e1, e2, e3]

/-- What popping a word can do: raise at the first or at the second byte, or read two cells. -/
theorem popWord_cases (s : State) :
    (s.sp = 0xFF#8 ∧ popWord s = .raise .stackUnderflow s) ∨
    (s.sp = 0xFE#8 ∧ popWord s = .raise .stackUnderflow { s with sp := 0xFF }) ∨
    (s.sp.toNat ≤ 0xFD ∧ popWord s =
      .ok (wordOf (Memory.get s.mem (0x100 + s.sp.toNat)) (Memory.get s.mem (0x101 + s.sp.toNat)))
        { s with sp := s.sp + 2 }) := by
  unfold popWord
  rcases pop_cases s with ⟨h0, h⟩ | ⟨h0, h⟩ <;> rw [h]
  · exact .inl ⟨h0, rfl⟩
  · simp only [Res.andThen_ok]
    rcases pop_cases { s with sp := s.sp + 1 } with ⟨h1, h⟩ | ⟨h1, h⟩ <;> rw [h] <;> simp only at h1
    · have e : s.sp = 0xFE#8 := by bv_omega
      exact .inr (.inl ⟨e, by simp [e]⟩)
    · refine .inr (.inr ⟨by bv_omega, ?_⟩)
      have e1 : (stackAddr s.sp).toNat = 0x100 + s.sp.toNat := stackAddr_toNat _
      have e2 : (stackAddr (s.sp + 1)).toNat = 0x101 + s.sp.toNat := by rw [stackAddr_toNat]; bv_omega
      have e3 : s.sp + 1 + 1 = s.sp + 2 := by bv_omega
      show Res.ok (wordOf (Memory.get s.mem (stackAddr s.sp).toNat)
        (Memory.get s.mem (stackAddr (s.sp + 1)).toNat)) { s with sp := s.sp + 1 + 1 } = _
      rw [e1, e2, e3]

/-! ## The end of an instruction -/

@[simp] theorem finish_ok (s : State) : finish (.ok () s) = complete s := rfl

@[simp] theorem finish_raise (f : Fault) (s : State) : finish (.raise f s) = .next (halt f s) := rfl

/-- An instruction that may raise ends in a next state: one more instruction counted, or Halted. -/
theorem finish_cases (r : Res Unit) :
    (∃ s, r = .ok () s ∧ finish r = .next { s with count := s.count + 1 }) ∨
    (∃ f s, r = .raise f s ∧ finish r = .next (halt f s)) := by
  cases r with
  | ok v s => exact .inl ⟨s, rfl, rfl⟩
  | raise f s => exact .inr ⟨f, s, rfl, rfl⟩

/-! ## The fetch -/

/-- FetchByte changes nothing but PC and the count of draws. -/
theorem fetchByte_onlyDraws (s : State) : OnlyDraws { s with pc := s.pc + 1 } (fetchByte s).2 := by
  unfold fetchByte memRead
  split
  · exact ⟨rfl, Nat.le_succ _⟩
  · exact OnlyDraws.refl _

/-- FetchByte of a cell that is not the tap. -/
theorem fetchByte_stored {s : State} (h : s.isTap s.pc = false) :
    fetchByte s = (Memory.get s.mem s.pc.toNat, { s with pc := s.pc + 1 }) := by
  simp [fetchByte, memRead_stored h]

end Sys2Proof.Machine
end

