-- ==== Sys2Proof/Laws/Exec.lean ====
section
/-! SUPPORT. What an instruction can do, said once: the state it has reached when it ends, and the two ways
it can end. -/

namespace Sys2Proof.Machine

/-- `u` can be reached from `s` inside one instruction: the run state, the recorded fault, the counter, the
log and the parameter are as they were, draws are not taken back, the memory stays canonical, and the sink
trace is extended, by calls in the window only. -/
structure Reach (s u : State) : Prop where
  runningState : u.runningState = s.runningState
  errorState : u.errorState = s.errorState
  lastFault : u.lastFault = s.lastFault
  count : u.count = s.count
  log : u.log = s.log
  rngAddr : u.rngAddr = s.rngAddr
  draws : s.draws ≤ u.draws
  mem : Memory.wf s.mem = true → Memory.wf u.mem = true
  sink : ∃ cs, u.sink = s.sink ++ cs ∧ ∀ c ∈ cs, inDisplay c.1 = true

theorem Reach.trans {s u v : State} (h : Reach s u) (k : Reach u v) : Reach s v where
  runningState := k.runningState.trans h.runningState
  errorState := k.errorState.trans h.errorState
  lastFault := k.lastFault.trans h.lastFault
  count := k.count.trans h.count
  log := k.log.trans h.log
  rngAddr := k.rngAddr.trans h.rngAddr
  draws := Nat.le_trans h.draws k.draws
  mem := k.mem ∘ h.mem
  sink := by
    obtain ⟨cs, h1, h2⟩ := h.sink
    obtain ⟨ds, k1, k2⟩ := k.sink
    refine ⟨cs ++ ds, by rw [k1, h1, List.append_assoc], fun c hc => ?_⟩
    rcases List.mem_append.1 hc with hc | hc
    · exact h2 c hc
    · exact k2 c hc

/-- New values of the registers alone. -/
theorem Reach.registers (s : State) (a x y p sp : Byte) (pc : Word) :
    Reach s { s with a := a, x := x, y := y, p := p, sp := sp, pc := pc } :=
  ⟨rfl, rfl, rfl, rfl, rfl, rfl, Nat.le_refl _, id, [], (List.append_nil _).symm, by simp⟩

theorem Reach.refl (s : State) : Reach s s := Reach.registers s s.a s.x s.y s.p s.sp s.pc

theorem OnlyDraws.reach {s t : State} (h : OnlyDraws s t) : Reach s t := by
  obtain ⟨h1, h2⟩ := h
  rw [h1]
  exact ⟨rfl, rfl, rfl, rfl, rfl, rfl, h2, id, [], (List.append_nil _).symm, by simp⟩

theorem memWrite_reach (addr : Word) (v : Byte) (s : State) : Reach s (memWrite addr v s) := by
  refine ⟨rfl, rfl, rfl, rfl, rfl, rfl, Nat.le_refl _, fun h => memWrite_wf h addr v, ?_⟩
  by_cases h : inDisplay addr = true
  · exact ⟨[(addr, v)], by simp [memWrite, h], by simpa using h⟩
  · exact ⟨[], by simp [memWrite, h], by simp⟩

/-- What a part of an instruction has reached, whether it goes on or has raised. -/
def Res.Reaches {α : Type} (r : Res α) (s : State) : Prop :=
  match r with
  | .ok _ u => Reach s u
  | .raise _ u => Reach s u

theorem Res.Reaches.andThen {α β : Type} {r : Res α} {s : State} (h : r.Reaches s) {k : α → State → Res β}
    (hk : ∀ v u, (k v u).Reaches u) : (r.andThen k).Reaches s := by
  cases r with
  | raise f u => exact h
  | ok v u =>
    have h' := hk v u
    show (k v u).Reaches s
    revert h'
    cases k v u with
    | ok v' u' => exact Reach.trans h
    | raise f' u' => exact Reach.trans h

theorem push_reaches (v : Byte) (s : State) : (push v s).Reaches s := by
  unfold push
  split
  · exact Reach.refl s
  · exact (Reach.registers s s.a s.x s.y s.p (s.sp - 1) s.pc).trans (memWrite_reach _ _ _)

theorem pop_reaches (s : State) : (pop s).Reaches s := by
  rcases pop_cases s with ⟨_, h⟩ | ⟨_, h⟩ <;> rw [h]
  · exact Reach.refl s
  · exact Reach.registers s s.a s.x s.y s.p (s.sp + 1) s.pc

theorem pushWord_reaches (w : Word) (s : State) : (pushWord w s).Reaches s :=
  (push_reaches _ s).andThen fun _ _ => push_reaches _ _

theorem popWord_reaches (s : State) : (popWord s).Reaches s :=
  (pop_reaches s).andThen fun _ _ => (pop_reaches _).andThen fun _ u => Reach.refl u

/-- The two ways an instruction ends: success, or Halt of the state it had reached. -/
def Ends (o : Host.Outcome State Fault Refusal) (s : State) : Prop :=
  (∃ u, o = complete u ∧ Reach s u) ∨ ∃ f u, o = .next (halt f u) ∧ Reach s u

theorem Res.Reaches.finish {r : Res Unit} {s : State} (h : r.Reaches s) : Ends (finish r) s := by
  cases r with
  | ok v u => exact .inl ⟨u, rfl, h⟩
  | raise f u => exact .inr ⟨f, u, rfl, h⟩

/-- An instruction that reads one operand and then writes registers only. -/
theorem ends_read (src : Source) (s : State) (a x y p sp : Byte) (pc : Word) :
    Ends (complete { (readOperand src s).2 with a := a, x := x, y := y, p := p, sp := sp, pc := pc }) s :=
  .inl ⟨_, rfl, (readOperand_onlyDraws src s).reach.trans (Reach.registers _ a x y p sp pc)⟩

/-- An instruction that writes registers only. -/
theorem ends_registers (s : State) (a x y p sp : Byte) (pc : Word) :
    Ends (complete { s with a := a, x := x, y := y, p := p, sp := sp, pc := pc }) s :=
  .inl ⟨_, rfl, Reach.registers s a x y p sp pc⟩

theorem ends_store (m : Address) (v : Byte) (s : State) : Ends (complete (storeAt m v s)) s :=
  .inl ⟨_, rfl, (m.resolve_onlyDraws s).reach.trans (memWrite_reach _ _ _)⟩

theorem modify_reach (m : Address) (f : Byte → Byte) (s : State) : Reach s (modify m f s).2 :=
  ((m.resolve_onlyDraws s).reach.trans (memRead_onlyDraws _ _).reach).trans (memWrite_reach _ _ _)

/-- An instruction that modifies one cell and then writes P. -/
theorem ends_modify (m : Address) (f : Byte → Byte) (s : State) (p : Byte) :
    Ends (complete { (modify m f s).2 with p := p }) s :=
  .inl ⟨_, rfl, (modify_reach m f s).trans (Reach.registers _ _ _ _ p _ _)⟩

end Sys2Proof.Machine
end

