-- ==== Sys2Proof/Laws/Fetch.lean ====
section
/-! SUPPORT. What every entry of the catalogue is, and what the fetch answers. -/

namespace Sys2Proof

open Sys2Proof.Machine

/-- An instruction `i` of `size` bytes whose encoding is the list `bytes`, standing in the slot `op`: well
formed, and the invalid entry exactly when the slot is not populated. -/
def Instr.OfSlot (op : Byte) (bytes : List Byte) (size : Nat) (i : Instr) : Prop :=
  encode i = bytes ∧ i.wellFormed = true ∧ i.size = size ∧
    (Config.populated op = false ↔ i = .invalid op) ∧ (Config.populated op = false ↔ i.mnemonic = "???")

/-- The entry `e` belongs in the slot `op`. -/
def Entry.OfSlot (op : Byte) (e : Entry) : Prop :=
  match e with
  | .single i => i.OfSlot op [op] 1
  | .byteOperand f => ∀ b, (f b).OfSlot op [op, b] 2
  | .wordOperand f => ∀ w, (f w).OfSlot op (op :: operandBytes w) 3

theorem row0_ofSlot : ∀ r ∈ row0, Config.populated r.1 = true → r.2.OfSlot r.1 := by
  simp only [row0, List.forall_mem_cons]
  repeat' apply And.intro
  all_goals first
    | (intro hp; simp [Entry.OfSlot, Instr.OfSlot, encode, Instr.wellFormed, Instr.size, Instr.mode, Mode.size, hp,
        Instr.mnemonic])
    | simp

theorem row1_ofSlot : ∀ r ∈ row1, Config.populated r.1 = true → r.2.OfSlot r.1 := by
  simp only [row1, List.forall_mem_cons]
  repeat' apply And.intro
  all_goals first
    | (intro hp; simp [Entry.OfSlot, Instr.OfSlot, encode, Instr.wellFormed, Instr.size, Instr.mode, Mode.size, hp,
        Instr.mnemonic])
    | simp

theorem row2_ofSlot : ∀ r ∈ row2, Config.populated r.1 = true → r.2.OfSlot r.1 := by
  simp only [row2, List.forall_mem_cons]
  repeat' apply And.intro
  all_goals first
    | (intro hp; simp [Entry.OfSlot, Instr.OfSlot, encode, Instr.wellFormed, Instr.size, Instr.mode, Mode.size, hp,
        Instr.mnemonic])
    | simp

theorem row3_ofSlot : ∀ r ∈ row3, Config.populated r.1 = true → r.2.OfSlot r.1 := by
  simp only [row3, List.forall_mem_cons]
  repeat' apply And.intro
  all_goals first
    | (intro hp; simp [Entry.OfSlot, Instr.OfSlot, encode, Instr.wellFormed, Instr.size, Instr.mode, Mode.size, hp,
        Instr.mnemonic])
    | simp

theorem row4_ofSlot : ∀ r ∈ row4, Config.populated r.1 = true → r.2.OfSlot r.1 := by
  simp only [row4, List.forall_mem_cons]
  repeat' apply And.intro
  all_goals first
    | (intro hp; simp [Entry.OfSlot, Instr.OfSlot, encode, Instr.wellFormed, Instr.size, Instr.mode, Mode.size, hp,
        Instr.mnemonic])
    | simp

theorem row5_ofSlot : ∀ r ∈ row5, Config.populated r.1 = true → r.2.OfSlot r.1 := by
  simp only [row5, List.forall_mem_cons]
  repeat' apply And.intro
  all_goals first
    | (intro hp; simp [Entry.OfSlot, Instr.OfSlot, encode, Instr.wellFormed, Instr.size, Instr.mode, Mode.size, hp,
        Instr.mnemonic])
    | simp

theorem row6_ofSlot : ∀ r ∈ row6, Config.populated r.1 = true → r.2.OfSlot r.1 := by
  simp only [row6, List.forall_mem_cons]
  repeat' apply And.intro
  all_goals first
    | (intro hp; simp [Entry.OfSlot, Instr.OfSlot, encode, Instr.wellFormed, Instr.size, Instr.mode, Mode.size, hp,
        Instr.mnemonic])
    | simp

theorem row7_ofSlot : ∀ r ∈ row7, Config.populated r.1 = true → r.2.OfSlot r.1 := by
  simp only [row7, List.forall_mem_cons]
  repeat' apply And.intro
  all_goals first
    | (intro hp; simp [Entry.OfSlot, Instr.OfSlot, encode, Instr.wellFormed, Instr.size, Instr.mode, Mode.size, hp,
        Instr.mnemonic])
    | simp

theorem row8_ofSlot : ∀ r ∈ row8, Config.populated r.1 = true → r.2.OfSlot r.1 := by
  simp only [row8, List.forall_mem_cons]
  repeat' apply And.intro
  all_goals first
    | (intro hp; simp [Entry.OfSlot, Instr.OfSlot, encode, Instr.wellFormed, Instr.size, Instr.mode, Mode.size, hp,
        Instr.mnemonic])
    | simp

theorem row9_ofSlot : ∀ r ∈ row9, Config.populated r.1 = true → r.2.OfSlot r.1 := by
  simp only [row9, List.forall_mem_cons]
  repeat' apply And.intro
  all_goals first
    | (intro hp; simp [Entry.OfSlot, Instr.OfSlot, encode, Instr.wellFormed, Instr.size, Instr.mode, Mode.size, hp,
        Instr.mnemonic])
    | simp

theorem rowA_ofSlot : ∀ r ∈ rowA, Config.populated r.1 = true → r.2.OfSlot r.1 := by
  simp only [rowA, List.forall_mem_cons]
  repeat' apply And.intro
  all_goals first
    | (intro hp; simp [Entry.OfSlot, Instr.OfSlot, encode, Instr.wellFormed, Instr.size, Instr.mode, Mode.size, hp,
        Instr.mnemonic])
    | simp

theorem rowB_ofSlot : ∀ r ∈ rowB, Config.populated r.1 = true → r.2.OfSlot r.1 := by
  simp only [rowB, List.forall_mem_cons]
  repeat' apply And.intro
  all_goals first
    | (intro hp; simp [Entry.OfSlot, Instr.OfSlot, encode, Instr.wellFormed, Instr.size, Instr.mode, Mode.size, hp,
        Instr.mnemonic])
    | simp

theorem rowC_ofSlot : ∀ r ∈ rowC, Config.populated r.1 = true → r.2.OfSlot r.1 := by
  simp only [rowC, List.forall_mem_cons]
  repeat' apply And.intro
  all_goals first
    | (intro hp; simp [Entry.OfSlot, Instr.OfSlot, encode, Instr.wellFormed, Instr.size, Instr.mode, Mode.size, hp,
        Instr.mnemonic])
    | simp

theorem rowD_ofSlot : ∀ r ∈ rowD, Config.populated r.1 = true → r.2.OfSlot r.1 := by
  simp only [rowD, List.forall_mem_cons]
  repeat' apply And.intro
  all_goals first
    | (intro hp; simp [Entry.OfSlot, Instr.OfSlot, encode, Instr.wellFormed, Instr.size, Instr.mode, Mode.size, hp,
        Instr.mnemonic])
    | simp

theorem rowE_ofSlot : ∀ r ∈ rowE, Config.populated r.1 = true → r.2.OfSlot r.1 := by
  simp only [rowE, List.forall_mem_cons]
  repeat' apply And.intro
  all_goals first
    | (intro hp; simp [Entry.OfSlot, Instr.OfSlot, encode, Instr.wellFormed, Instr.size, Instr.mode, Mode.size, hp,
        Instr.mnemonic])
    | simp

theorem rowF_ofSlot : ∀ r ∈ rowF, Config.populated r.1 = true → r.2.OfSlot r.1 := by
  simp only [rowF, List.forall_mem_cons]
  repeat' apply And.intro
  all_goals first
    | (intro hp; simp [Entry.OfSlot, Instr.OfSlot, encode, Instr.wellFormed, Instr.size, Instr.mode, Mode.size, hp,
        Instr.mnemonic])
    | simp

theorem opcodeRow_ofSlot (hi : Nat) : ∀ r ∈ opcodeRow hi, Config.populated r.1 = true → r.2.OfSlot r.1 := by
  unfold opcodeRow
  split
  · exact row0_ofSlot
  · exact row1_ofSlot
  · exact row2_ofSlot
  · exact row3_ofSlot
  · exact row4_ofSlot
  · exact row5_ofSlot
  · exact row6_ofSlot
  · exact row7_ofSlot
  · exact row8_ofSlot
  · exact row9_ofSlot
  · exact rowA_ofSlot
  · exact rowB_ofSlot
  · exact rowC_ofSlot
  · exact rowD_ofSlot
  · exact rowE_ofSlot
  · exact rowF_ofSlot

/-- Every populated opcode byte is found in its row. -/
theorem opcodeRow_find : ∀ op : Byte, Config.populated op = true →
    ((opcodeRow (op.toNat / 16)).find? (fun r => r.1 == op)).isSome = true := by decide

/-- Every slot of the catalogue holds an entry of its own (30_encoding.md R75, R78). -/
theorem catalogue_ofSlot (op : Byte) : (catalogue op).OfSlot op := by
  unfold catalogue
  split
  · next hp =>
    split
    · next r hr =>
      have h1 := List.find?_some hr
      have h2 := List.mem_of_find?_eq_some hr
      simp only [beq_iff_eq] at h1
      have h3 := opcodeRow_ofSlot _ r h2 (by rw [h1]; exact hp)
      rwa [h1] at h3
    · next hn =>
      have h := opcodeRow_find op hp
      simp [hn] at h
  · next hp =>
    simp only [Bool.not_eq_true] at hp
    simp [Entry.OfSlot, Instr.OfSlot, encode, Instr.wellFormed, Instr.size, Instr.mode, Instr.mnemonic, hp]

/-- An unpopulated slot holds the invalid entry, tagged with its own opcode (R78). -/
theorem catalogue_invalid {op : Byte} (h : Config.populated op = false) : catalogue op = .single (.invalid op) := by
  simp [catalogue, h]

end Sys2Proof

namespace Sys2Proof.Machine

/-- The fetch moves PC past the instruction and changes nothing else but the count of draws. -/
theorem fetch_onlyDraws (s : State) :
    (fetch s).2.pc = s.pc + BitVec.ofNat 16 (fetch s).1.size ∧
    OnlyDraws { s with pc := (fetch s).2.pc } (fetch s).2 := by
  have hc := catalogue_ofSlot (fetchByte s).1
  obtain ⟨a, b⟩ := fetchByte_onlyDraws s
  obtain ⟨c, d⟩ := fetchByte_onlyDraws (fetchByte s).2
  obtain ⟨e, f⟩ := fetchByte_onlyDraws (fetchByte (fetchByte s).2).2
  simp only [fetch]
  cases h : catalogue (fetchByte s).1 with
  | single i =>
    rw [h] at hc
    simp only [fetchOperands, hc.2.2.1]
    exact ⟨rfl, a, b⟩
  | byteOperand g =>
    rw [h] at hc
    simp only [fetchOperands, (hc _).2.2.1]
    exact ⟨by simp [fetchByte, BitVec.add_assoc], by rw [c, a], Nat.le_trans b d⟩
  | wordOperand g =>
    rw [h] at hc
    simp only [fetchOperands, (hc _).2.2.1]
    refine ⟨by simp [fetchWord, fetchByte, BitVec.add_assoc], ?_, ?_⟩
    · simp only [fetchWord]
      rw [e, c, a]
    · exact Nat.le_trans b (Nat.le_trans d f)

/-- The fetch stays within what one instruction can reach. -/
theorem fetch_reach (s : State) : Reach s (fetch s).2 :=
  (Reach.registers s s.a s.x s.y s.p s.sp (fetch s).2.pc).trans (fetch_onlyDraws s).2.reach

end Sys2Proof.Machine
end

