-- ==== Sys2Proof/Laws/Flags.lean ====
section
/-! SUPPORT. The flag operations bit by bit: what each leaves in every bit of P. -/

namespace Sys2Proof.Machine

/-- `setFlag` of bit `n` changes that bit and no other (00_scope.md R5). -/
theorem getLsbD_setFlag (n : Nat) (hn : n < 8) (b : Bool) (p : Byte) (k : Nat) :
    (setFlag (BitVec.twoPow 8 n) b p).getLsbD k = if k = n then b else p.getLsbD k := by
  by_cases hk : k < 8
  · cases b <;> by_cases h : k = n <;> simp [setFlag, hk, h, hn]
  · have h8 : 8 ≤ k := by omega
    rw [BitVec.getLsbD_of_ge _ _ h8, BitVec.getLsbD_of_ge _ _ h8]
    split
    · omega
    · rfl

theorem maskC_eq : maskC = BitVec.twoPow 8 0 := rfl
theorem maskZ_eq : maskZ = BitVec.twoPow 8 1 := rfl
theorem maskI_eq : maskI = BitVec.twoPow 8 2 := rfl
theorem maskD_eq : maskD = BitVec.twoPow 8 3 := rfl
theorem maskB_eq : maskB = BitVec.twoPow 8 4 := rfl
theorem maskV_eq : maskV = BitVec.twoPow 8 6 := rfl
theorem maskN_eq : maskN = BitVec.twoPow 8 7 := rfl

@[simp] theorem getLsbD_setFlag_C (b : Bool) (p : Byte) (k : Nat) :
    (setFlag maskC b p).getLsbD k = if k = 0 then b else p.getLsbD k := getLsbD_setFlag 0 (by decide) b p k
@[simp] theorem getLsbD_setFlag_Z (b : Bool) (p : Byte) (k : Nat) :
    (setFlag maskZ b p).getLsbD k = if k = 1 then b else p.getLsbD k := getLsbD_setFlag 1 (by decide) b p k
@[simp] theorem getLsbD_setFlag_I (b : Bool) (p : Byte) (k : Nat) :
    (setFlag maskI b p).getLsbD k = if k = 2 then b else p.getLsbD k := getLsbD_setFlag 2 (by decide) b p k
@[simp] theorem getLsbD_setFlag_D (b : Bool) (p : Byte) (k : Nat) :
    (setFlag maskD b p).getLsbD k = if k = 3 then b else p.getLsbD k := getLsbD_setFlag 3 (by decide) b p k
@[simp] theorem getLsbD_setFlag_V (b : Bool) (p : Byte) (k : Nat) :
    (setFlag maskV b p).getLsbD k = if k = 6 then b else p.getLsbD k := getLsbD_setFlag 6 (by decide) b p k
@[simp] theorem getLsbD_setFlag_N (b : Bool) (p : Byte) (k : Nat) :
    (setFlag maskN b p).getLsbD k = if k = 7 then b else p.getLsbD k := getLsbD_setFlag 7 (by decide) b p k

/-! The same in the form that `simp` gives a bit of fixed number. -/

@[simp] theorem getElem_setFlag_C (b : Bool) (p : Byte) (k : Nat) (h : k < 8) :
    (setFlag maskC b p)[k] = if k = 0 then b else p[k] := by
  rw [← BitVec.getLsbD_eq_getElem, getLsbD_setFlag_C, BitVec.getLsbD_eq_getElem]
@[simp] theorem getElem_setFlag_Z (b : Bool) (p : Byte) (k : Nat) (h : k < 8) :
    (setFlag maskZ b p)[k] = if k = 1 then b else p[k] := by
  rw [← BitVec.getLsbD_eq_getElem, getLsbD_setFlag_Z, BitVec.getLsbD_eq_getElem]
@[simp] theorem getElem_setFlag_I (b : Bool) (p : Byte) (k : Nat) (h : k < 8) :
    (setFlag maskI b p)[k] = if k = 2 then b else p[k] := by
  rw [← BitVec.getLsbD_eq_getElem, getLsbD_setFlag_I, BitVec.getLsbD_eq_getElem]
@[simp] theorem getElem_setFlag_D (b : Bool) (p : Byte) (k : Nat) (h : k < 8) :
    (setFlag maskD b p)[k] = if k = 3 then b else p[k] := by
  rw [← BitVec.getLsbD_eq_getElem, getLsbD_setFlag_D, BitVec.getLsbD_eq_getElem]
@[simp] theorem getElem_setFlag_V (b : Bool) (p : Byte) (k : Nat) (h : k < 8) :
    (setFlag maskV b p)[k] = if k = 6 then b else p[k] := by
  rw [← BitVec.getLsbD_eq_getElem, getLsbD_setFlag_V, BitVec.getLsbD_eq_getElem]
@[simp] theorem getElem_setFlag_N (b : Bool) (p : Byte) (k : Nat) (h : k < 8) :
    (setFlag maskN b p)[k] = if k = 7 then b else p[k] := by
  rw [← BitVec.getLsbD_eq_getElem, getLsbD_setFlag_N, BitVec.getLsbD_eq_getElem]

/-- `checkFlag` of bit `n` reads that bit. -/
theorem checkFlag_bit (n : Nat) (hn : n < 8) (p : Byte) : checkFlag (BitVec.twoPow 8 n) p = p.getLsbD n := by
  rw [Bool.eq_iff_iff, checkFlag, bne_iff_ne, ne_eq, BitVec.and_twoPow]
  by_cases h : p.getLsbD n = true
  · simp only [h, if_true]
    refine iff_of_true (fun h0 => ?_) trivial
    have h1 : (BitVec.twoPow 8 n).getLsbD n = true := by simp [hn]
    rw [h0] at h1
    simp at h1
  · simp [h]

@[simp] theorem flagC_eq (s : State) : s.flagC = s.p.getLsbD 0 := checkFlag_bit 0 (by decide) s.p
@[simp] theorem flagZ_eq (s : State) : s.flagZ = s.p.getLsbD 1 := checkFlag_bit 1 (by decide) s.p
@[simp] theorem flagD_eq (s : State) : s.flagD = s.p.getLsbD 3 := checkFlag_bit 3 (by decide) s.p
@[simp] theorem flagV_eq (s : State) : s.flagV = s.p.getLsbD 6 := checkFlag_bit 6 (by decide) s.p
@[simp] theorem flagN_eq (s : State) : s.flagN = s.p.getLsbD 7 := checkFlag_bit 7 (by decide) s.p

/-- SetNZ writes bits 7 and 1 and no other (40_execution_and_addressing.md R121). -/
theorem getLsbD_nzBits (v p : Byte) (k : Nat) :
    (nzBits v p).getLsbD k = if k = 1 then v == 0 else if k = 7 then v.getLsbD 7 else p.getLsbD k := by
  simp [nzBits, BitVec.msb_eq_getLsbD_last]

theorem getElem_nzBits (v p : Byte) (k : Nat) (h : k < 8) :
    (nzBits v p)[k] = if k = 1 then v == 0 else if k = 7 then v[7] else p[k] := by
  rw [← BitVec.getLsbD_eq_getElem, getLsbD_nzBits, BitVec.getLsbD_eq_getElem, BitVec.getLsbD_eq_getElem]

/-- The compare of this machine is the borrow form (decision D8). -/
theorem compareCarry_eq (r m : Byte) : compareCarry r m = decide (m ≤ r) := rfl

/-- The displacement BranchTarget adds, for each of the 256 offset bytes. -/
theorem displacement_eq : ∀ off : Byte,
    (if 0x7F#8 < off then -(0x100 - zext16 off) else zext16 off) = off.signExtend 16 := by decide

/-- BranchTarget is addition of the signed displacement, modulo 65536 (R123). -/
theorem branchTarget_eq (a : Word) (off : Byte) : branchTarget a off = a + off.signExtend 16 := by
  rw [← displacement_eq off]
  unfold branchTarget
  split
  · rw [BitVec.sub_eq_add_neg]
  · rfl

end Sys2Proof.Machine
end

