-- ==== Sys2Proof/Laws/PerInstr.lean ====
section
/-! SUPPORT. The family Length, one lemma per constructor of Instr: an instruction's encoding is as long
as its catalogue entry's size says (30_encoding.md R70 to R72). -/

namespace Sys2Proof.Laws

/-- The encoding of an instruction has `size` bytes. -/
def Length.Statement (i : Instr) : Prop := (encode i).length = i.size

theorem Length.ldaImmediate (b : Byte) : Length.Statement (.ldaImmediate b) := rfl
theorem Length.ldaZeroPage (b : Byte) : Length.Statement (.ldaZeroPage b) := rfl
theorem Length.ldaZeroPageX (b : Byte) : Length.Statement (.ldaZeroPageX b) := rfl
theorem Length.ldaAbsolute (w : Word) : Length.Statement (.ldaAbsolute w) := rfl
theorem Length.ldaAbsoluteX (w : Word) : Length.Statement (.ldaAbsoluteX w) := rfl
theorem Length.ldaAbsoluteY (w : Word) : Length.Statement (.ldaAbsoluteY w) := rfl
theorem Length.ldaIndexedIndirectX (b : Byte) : Length.Statement (.ldaIndexedIndirectX b) := rfl
theorem Length.ldaIndirectIndexedY (b : Byte) : Length.Statement (.ldaIndirectIndexedY b) := rfl
theorem Length.ldxImmediate (b : Byte) : Length.Statement (.ldxImmediate b) := rfl
theorem Length.ldxZeroPage (b : Byte) : Length.Statement (.ldxZeroPage b) := rfl
theorem Length.ldxZeroPageY (b : Byte) : Length.Statement (.ldxZeroPageY b) := rfl
theorem Length.ldxAbsolute (w : Word) : Length.Statement (.ldxAbsolute w) := rfl
theorem Length.ldxAbsoluteY (w : Word) : Length.Statement (.ldxAbsoluteY w) := rfl
theorem Length.ldyImmediate (b : Byte) : Length.Statement (.ldyImmediate b) := rfl
theorem Length.ldyZeroPage (b : Byte) : Length.Statement (.ldyZeroPage b) := rfl
theorem Length.ldyZeroPageX (b : Byte) : Length.Statement (.ldyZeroPageX b) := rfl
theorem Length.ldyAbsolute (w : Word) : Length.Statement (.ldyAbsolute w) := rfl
theorem Length.ldyAbsoluteX (w : Word) : Length.Statement (.ldyAbsoluteX w) := rfl
theorem Length.staZeroPage (b : Byte) : Length.Statement (.staZeroPage b) := rfl
theorem Length.staZeroPageX (b : Byte) : Length.Statement (.staZeroPageX b) := rfl
theorem Length.staAbsolute (w : Word) : Length.Statement (.staAbsolute w) := rfl
theorem Length.staAbsoluteX (w : Word) : Length.Statement (.staAbsoluteX w) := rfl
theorem Length.staAbsoluteY (w : Word) : Length.Statement (.staAbsoluteY w) := rfl
theorem Length.staIndexedIndirectX (b : Byte) : Length.Statement (.staIndexedIndirectX b) := rfl
theorem Length.staIndirectIndexedY (b : Byte) : Length.Statement (.staIndirectIndexedY b) := rfl
theorem Length.stxZeroPage (b : Byte) : Length.Statement (.stxZeroPage b) := rfl
theorem Length.stxZeroPageY (b : Byte) : Length.Statement (.stxZeroPageY b) := rfl
theorem Length.stxAbsolute (w : Word) : Length.Statement (.stxAbsolute w) := rfl
theorem Length.styZeroPage (b : Byte) : Length.Statement (.styZeroPage b) := rfl
theorem Length.styZeroPageX (b : Byte) : Length.Statement (.styZeroPageX b) := rfl
theorem Length.styAbsolute (w : Word) : Length.Statement (.styAbsolute w) := rfl
theorem Length.tax : Length.Statement (.tax) := rfl
theorem Length.tay : Length.Statement (.tay) := rfl
theorem Length.txa : Length.Statement (.txa) := rfl
theorem Length.tya : Length.Statement (.tya) := rfl
theorem Length.tsx : Length.Statement (.tsx) := rfl
theorem Length.txs : Length.Statement (.txs) := rfl
theorem Length.adcImmediate (b : Byte) : Length.Statement (.adcImmediate b) := rfl
theorem Length.adcZeroPage (b : Byte) : Length.Statement (.adcZeroPage b) := rfl
theorem Length.adcZeroPageX (b : Byte) : Length.Statement (.adcZeroPageX b) := rfl
theorem Length.adcAbsolute (w : Word) : Length.Statement (.adcAbsolute w) := rfl
theorem Length.adcAbsoluteX (w : Word) : Length.Statement (.adcAbsoluteX w) := rfl
theorem Length.adcAbsoluteY (w : Word) : Length.Statement (.adcAbsoluteY w) := rfl
theorem Length.adcIndexedIndirectX (b : Byte) : Length.Statement (.adcIndexedIndirectX b) := rfl
theorem Length.adcIndirectIndexedY (b : Byte) : Length.Statement (.adcIndirectIndexedY b) := rfl
theorem Length.sbcImmediate (b : Byte) : Length.Statement (.sbcImmediate b) := rfl
theorem Length.sbcZeroPage (b : Byte) : Length.Statement (.sbcZeroPage b) := rfl
theorem Length.sbcZeroPageX (b : Byte) : Length.Statement (.sbcZeroPageX b) := rfl
theorem Length.sbcAbsolute (w : Word) : Length.Statement (.sbcAbsolute w) := rfl
theorem Length.sbcAbsoluteX (w : Word) : Length.Statement (.sbcAbsoluteX w) := rfl
theorem Length.sbcAbsoluteY (w : Word) : Length.Statement (.sbcAbsoluteY w) := rfl
theorem Length.sbcIndexedIndirectX (b : Byte) : Length.Statement (.sbcIndexedIndirectX b) := rfl
theorem Length.sbcIndirectIndexedY (b : Byte) : Length.Statement (.sbcIndirectIndexedY b) := rfl
theorem Length.andImmediate (b : Byte) : Length.Statement (.andImmediate b) := rfl
theorem Length.andZeroPage (b : Byte) : Length.Statement (.andZeroPage b) := rfl
theorem Length.andZeroPageX (b : Byte) : Length.Statement (.andZeroPageX b) := rfl
theorem Length.andAbsolute (w : Word) : Length.Statement (.andAbsolute w) := rfl
theorem Length.andAbsoluteX (w : Word) : Length.Statement (.andAbsoluteX w) := rfl
theorem Length.andAbsoluteY (w : Word) : Length.Statement (.andAbsoluteY w) := rfl
theorem Length.andIndexedIndirectX (b : Byte) : Length.Statement (.andIndexedIndirectX b) := rfl
theorem Length.andIndirectIndexedY (b : Byte) : Length.Statement (.andIndirectIndexedY b) := rfl
theorem Length.oraImmediate (b : Byte) : Length.Statement (.oraImmediate b) := rfl
theorem Length.oraZeroPage (b : Byte) : Length.Statement (.oraZeroPage b) := rfl
theorem Length.oraZeroPageX (b : Byte) : Length.Statement (.oraZeroPageX b) := rfl
theorem Length.oraAbsolute (w : Word) : Length.Statement (.oraAbsolute w) := rfl
theorem Length.oraAbsoluteX (w : Word) : Length.Statement (.oraAbsoluteX w) := rfl
theorem Length.oraAbsoluteY (w : Word) : Length.Statement (.oraAbsoluteY w) := rfl
theorem Length.oraIndexedIndirectX (b : Byte) : Length.Statement (.oraIndexedIndirectX b) := rfl
theorem Length.oraIndirectIndexedY (b : Byte) : Length.Statement (.oraIndirectIndexedY b) := rfl
theorem Length.eorImmediate (b : Byte) : Length.Statement (.eorImmediate b) := rfl
theorem Length.eorZeroPage (b : Byte) : Length.Statement (.eorZeroPage b) := rfl
theorem Length.eorZeroPageX (b : Byte) : Length.Statement (.eorZeroPageX b) := rfl
theorem Length.eorAbsolute (w : Word) : Length.Statement (.eorAbsolute w) := rfl
theorem Length.eorAbsoluteX (w : Word) : Length.Statement (.eorAbsoluteX w) := rfl
theorem Length.eorAbsoluteY (w : Word) : Length.Statement (.eorAbsoluteY w) := rfl
theorem Length.eorIndexedIndirectX (b : Byte) : Length.Statement (.eorIndexedIndirectX b) := rfl
theorem Length.eorIndirectIndexedY (b : Byte) : Length.Statement (.eorIndirectIndexedY b) := rfl
theorem Length.bitZeroPage (b : Byte) : Length.Statement (.bitZeroPage b) := rfl
theorem Length.bitAbsolute (w : Word) : Length.Statement (.bitAbsolute w) := rfl
theorem Length.cmpImmediate (b : Byte) : Length.Statement (.cmpImmediate b) := rfl
theorem Length.cmpZeroPage (b : Byte) : Length.Statement (.cmpZeroPage b) := rfl
theorem Length.cmpZeroPageX (b : Byte) : Length.Statement (.cmpZeroPageX b) := rfl
theorem Length.cmpAbsolute (w : Word) : Length.Statement (.cmpAbsolute w) := rfl
theorem Length.cmpAbsoluteX (w : Word) : Length.Statement (.cmpAbsoluteX w) := rfl
theorem Length.cmpAbsoluteY (w : Word) : Length.Statement (.cmpAbsoluteY w) := rfl
theorem Length.cmpIndexedIndirectX (b : Byte) : Length.Statement (.cmpIndexedIndirectX b) := rfl
theorem Length.cmpIndirectIndexedY (b : Byte) : Length.Statement (.cmpIndirectIndexedY b) := rfl
theorem Length.cpxImmediate (b : Byte) : Length.Statement (.cpxImmediate b) := rfl
theorem Length.cpxZeroPage (b : Byte) : Length.Statement (.cpxZeroPage b) := rfl
theorem Length.cpxAbsolute (w : Word) : Length.Statement (.cpxAbsolute w) := rfl
theorem Length.cpyImmediate (b : Byte) : Length.Statement (.cpyImmediate b) := rfl
theorem Length.cpyZeroPage (b : Byte) : Length.Statement (.cpyZeroPage b) := rfl
theorem Length.cpyAbsolute (w : Word) : Length.Statement (.cpyAbsolute w) := rfl
theorem Length.incZeroPage (b : Byte) : Length.Statement (.incZeroPage b) := rfl
theorem Length.incZeroPageX (b : Byte) : Length.Statement (.incZeroPageX b) := rfl
theorem Length.incAbsolute (w : Word) : Length.Statement (.incAbsolute w) := rfl
theorem Length.incAbsoluteX (w : Word) : Length.Statement (.incAbsoluteX w) := rfl
theorem Length.decZeroPage (b : Byte) : Length.Statement (.decZeroPage b) := rfl
theorem Length.decZeroPageX (b : Byte) : Length.Statement (.decZeroPageX b) := rfl
theorem Length.decAbsolute (w : Word) : Length.Statement (.decAbsolute w) := rfl
theorem Length.decAbsoluteX (w : Word) : Length.Statement (.decAbsoluteX w) := rfl
theorem Length.inx : Length.Statement (.inx) := rfl
theorem Length.iny : Length.Statement (.iny) := rfl
theorem Length.dex : Length.Statement (.dex) := rfl
theorem Length.dey : Length.Statement (.dey) := rfl
theorem Length.aslZeroPage (b : Byte) : Length.Statement (.aslZeroPage b) := rfl
theorem Length.aslZeroPageX (b : Byte) : Length.Statement (.aslZeroPageX b) := rfl
theorem Length.aslAbsolute (w : Word) : Length.Statement (.aslAbsolute w) := rfl
theorem Length.aslAbsoluteX (w : Word) : Length.Statement (.aslAbsoluteX w) := rfl
theorem Length.aslAccumulator : Length.Statement (.aslAccumulator) := rfl
theorem Length.lsrZeroPage (b : Byte) : Length.Statement (.lsrZeroPage b) := rfl
theorem Length.lsrZeroPageX (b : Byte) : Length.Statement (.lsrZeroPageX b) := rfl
theorem Length.lsrAbsolute (w : Word) : Length.Statement (.lsrAbsolute w) := rfl
theorem Length.lsrAbsoluteX (w : Word) : Length.Statement (.lsrAbsoluteX w) := rfl
theorem Length.lsrAccumulator : Length.Statement (.lsrAccumulator) := rfl
theorem Length.rolZeroPage (b : Byte) : Length.Statement (.rolZeroPage b) := rfl
theorem Length.rolZeroPageX (b : Byte) : Length.Statement (.rolZeroPageX b) := rfl
theorem Length.rolAbsolute (w : Word) : Length.Statement (.rolAbsolute w) := rfl
theorem Length.rolAbsoluteX (w : Word) : Length.Statement (.rolAbsoluteX w) := rfl
theorem Length.rolAccumulator : Length.Statement (.rolAccumulator) := rfl
theorem Length.rorZeroPage (b : Byte) : Length.Statement (.rorZeroPage b) := rfl
theorem Length.rorZeroPageX (b : Byte) : Length.Statement (.rorZeroPageX b) := rfl
theorem Length.rorAbsolute (w : Word) : Length.Statement (.rorAbsolute w) := rfl
theorem Length.rorAbsoluteX (w : Word) : Length.Statement (.rorAbsoluteX w) := rfl
theorem Length.rorAccumulator : Length.Statement (.rorAccumulator) := rfl
theorem Length.jmpAbsolute (w : Word) : Length.Statement (.jmpAbsolute w) := rfl
theorem Length.jmpIndirect (w : Word) : Length.Statement (.jmpIndirect w) := rfl
theorem Length.jsr (w : Word) : Length.Statement (.jsr w) := rfl
theorem Length.rts : Length.Statement (.rts) := rfl
theorem Length.bcc (b : Byte) : Length.Statement (.bcc b) := rfl
theorem Length.bcs (b : Byte) : Length.Statement (.bcs b) := rfl
theorem Length.beq (b : Byte) : Length.Statement (.beq b) := rfl
theorem Length.bne (b : Byte) : Length.Statement (.bne b) := rfl
theorem Length.bmi (b : Byte) : Length.Statement (.bmi b) := rfl
theorem Length.bpl (b : Byte) : Length.Statement (.bpl b) := rfl
theorem Length.bvc (b : Byte) : Length.Statement (.bvc b) := rfl
theorem Length.bvs (b : Byte) : Length.Statement (.bvs b) := rfl
theorem Length.pha : Length.Statement (.pha) := rfl
theorem Length.pla : Length.Statement (.pla) := rfl
theorem Length.php : Length.Statement (.php) := rfl
theorem Length.plp : Length.Statement (.plp) := rfl
theorem Length.clc : Length.Statement (.clc) := rfl
theorem Length.sec : Length.Statement (.sec) := rfl
theorem Length.cld : Length.Statement (.cld) := rfl
theorem Length.sed : Length.Statement (.sed) := rfl
theorem Length.cli : Length.Statement (.cli) := rfl
theorem Length.sei : Length.Statement (.sei) := rfl
theorem Length.clv : Length.Statement (.clv) := rfl
theorem Length.nop : Length.Statement (.nop) := rfl
theorem Length.brk : Length.Statement (.brk) := rfl
theorem Length.rti : Length.Statement (.rti) := rfl
theorem Length.invalid (op : Byte) : Length.Statement (.invalid op) := rfl

end Sys2Proof.Laws
end

