-- ==== Sys2Proof/Laws/Runs.lean ====
section
/-! SUPPORT. Every instruction, by the shared meaning it runs. -/

namespace Sys2Proof.Machine

/-- `Runs s i o`: the meaning of `i` in `s` is the shared meaning that gives `o`. The families with many
forms have one constructor each, which keeps the mnemonic and forgets the addressing mode. -/
inductive Runs (s : State) : Instr → Host.Outcome State Fault Refusal → Prop where
  | loadA {i : Instr} {src : Source} (h : i.mnemonic = "LDA") : Runs s i (loadA src s)
  | loadX {i : Instr} {src : Source} (h : i.mnemonic = "LDX") : Runs s i (loadX src s)
  | loadY {i : Instr} {src : Source} (h : i.mnemonic = "LDY") : Runs s i (loadY src s)
  | addOperand {i : Instr} {src : Source} (h : i.mnemonic = "ADC") : Runs s i (addOperand src s)
  | subtractOperand {i : Instr} {src : Source} (h : i.mnemonic = "SBC") : Runs s i (subtractOperand src s)
  | logic {i : Instr} {f : Byte → Byte → Byte} {src : Source} (h : i.mnemonic ∈ ["AND", "ORA", "EOR"]) :
      Runs s i (logicOperand f src s)
  | bitOperand {i : Instr} {src : Source} (h : i.mnemonic = "BIT") : Runs s i (bitOperand src s)
  | compareOperand {i : Instr} {reg : Byte} {src : Source} (h : i.mnemonic ∈ ["CMP", "CPX", "CPY"]) :
      Runs s i (compareOperand reg src s)
  | store {i : Instr} {m : Address} {v : Byte} (h : i.mnemonic ∈ ["STA", "STX", "STY"]) :
      Runs s i (complete (storeAt m v s))
  | modifyNZ {i : Instr} {m : Address} {f : Byte → Byte} (h : i.mnemonic ∈ ["INC", "DEC"]) :
      Runs s i (modifyNZ m f s)
  | shiftMemory {i : Instr} {m : Address} {f : Byte → Byte} {out : Byte → Bool}
      (h : i.mnemonic ∈ ["ASL", "LSR", "ROL", "ROR"]) (hm : i.mode ≠ some .single) :
      Runs s i (shiftMemory m f out s)
  | shiftAccumulator {i : Instr} {f : Byte → Byte} {out : Byte → Bool}
      (h : i.mnemonic ∈ ["ASL", "LSR", "ROL", "ROR"]) (hm : i.mode = some .single) :
      Runs s i (shiftAccumulator f out s)
  | branch {i : Instr} {cond : Bool} {off : Byte}
      (h : i.mnemonic ∈ ["BCC", "BCS", "BEQ", "BNE", "BMI", "BPL", "BVC", "BVS"]) : Runs s i (branch cond off s)
  | tax : Runs s .tax (execTax s)
  | tay : Runs s .tay (execTay s)
  | txa : Runs s .txa (execTxa s)
  | tya : Runs s .tya (execTya s)
  | tsx : Runs s .tsx (execTsx s)
  | txs : Runs s .txs (execTxs s)
  | inx : Runs s .inx (execInx s)
  | iny : Runs s .iny (execIny s)
  | dex : Runs s .dex (execDex s)
  | dey : Runs s .dey (execDey s)
  | jmpAbsolute {w : Word} : Runs s (.jmpAbsolute w) (execJmpAbsolute w s)
  | jmpIndirect {w : Word} : Runs s (.jmpIndirect w) (execJmpIndirect w s)
  | jsr {w : Word} : Runs s (.jsr w) (execJsr w s)
  | rts : Runs s .rts (execRts s)
  | pha : Runs s .pha (execPha s)
  | pla : Runs s .pla (execPla s)
  | php : Runs s .php (execPhp s)
  | plp : Runs s .plp (execPlp s)
  | clc : Runs s .clc (execClc s)
  | sec : Runs s .sec (execSec s)
  | cld : Runs s .cld (execCld s)
  | sed : Runs s .sed (execSed s)
  | cli : Runs s .cli (execCli s)
  | sei : Runs s .sei (execSei s)
  | clv : Runs s .clv (execClv s)
  | nop : Runs s .nop (execNop s)
  | brk : Runs s .brk (execBrk s)
  | rti : Runs s .rti (execRti s)
  | invalid {op : Byte} : Runs s (.invalid op) (execInvalid op s)

/-- Every arm of `exec`. -/
theorem exec_runs (s : State) : ∀ i : Instr, Runs s i (exec i s)
  | .ldaImmediate _ => .loadA rfl
  | .ldaZeroPage _ => .loadA rfl
  | .ldaZeroPageX _ => .loadA rfl
  | .ldaAbsolute _ => .loadA rfl
  | .ldaAbsoluteX _ => .loadA rfl
  | .ldaAbsoluteY _ => .loadA rfl
  | .ldaIndexedIndirectX _ => .loadA rfl
  | .ldaIndirectIndexedY _ => .loadA rfl
  | .ldxImmediate _ => .loadX rfl
  | .ldxZeroPage _ => .loadX rfl
  | .ldxZeroPageY _ => .loadX rfl
  | .ldxAbsolute _ => .loadX rfl
  | .ldxAbsoluteY _ => .loadX rfl
  | .ldyImmediate _ => .loadY rfl
  | .ldyZeroPage _ => .loadY rfl
  | .ldyZeroPageX _ => .loadY rfl
  | .ldyAbsolute _ => .loadY rfl
  | .ldyAbsoluteX _ => .loadY rfl
  | .staZeroPage _ => .store (by simp [Instr.mnemonic])
  | .staZeroPageX _ => .store (by simp [Instr.mnemonic])
  | .staAbsolute _ => .store (by simp [Instr.mnemonic])
  | .staAbsoluteX _ => .store (by simp [Instr.mnemonic])
  | .staAbsoluteY _ => .store (by simp [Instr.mnemonic])
  | .staIndexedIndirectX _ => .store (by simp [Instr.mnemonic])
  | .staIndirectIndexedY _ => .store (by simp [Instr.mnemonic])
  | .stxZeroPage _ => .store (by simp [Instr.mnemonic])
  | .stxZeroPageY _ => .store (by simp [Instr.mnemonic])
  | .stxAbsolute _ => .store (by simp [Instr.mnemonic])
  | .styZeroPage _ => .store (by simp [Instr.mnemonic])
  | .styZeroPageX _ => .store (by simp [Instr.mnemonic])
  | .styAbsolute _ => .store (by simp [Instr.mnemonic])
  | .tax => .tax
  | .tay => .tay
  | .txa => .txa
  | .tya => .tya
  | .tsx => .tsx
  | .txs => .txs
  | .adcImmediate _ => .addOperand rfl
  | .adcZeroPage _ => .addOperand rfl
  | .adcZeroPageX _ => .addOperand rfl
  | .adcAbsolute _ => .addOperand rfl
  | .adcAbsoluteX _ => .addOperand rfl
  | .adcAbsoluteY _ => .addOperand rfl
  | .adcIndexedIndirectX _ => .addOperand rfl
  | .adcIndirectIndexedY _ => .addOperand rfl
  | .sbcImmediate _ => .subtractOperand rfl
  | .sbcZeroPage _ => .subtractOperand rfl
  | .sbcZeroPageX _ => .subtractOperand rfl
  | .sbcAbsolute _ => .subtractOperand rfl
  | .sbcAbsoluteX _ => .subtractOperand rfl
  | .sbcAbsoluteY _ => .subtractOperand rfl
  | .sbcIndexedIndirectX _ => .subtractOperand rfl
  | .sbcIndirectIndexedY _ => .subtractOperand rfl
  | .andImmediate _ => .logic (by simp [Instr.mnemonic])
  | .andZeroPage _ => .logic (by simp [Instr.mnemonic])
  | .andZeroPageX _ => .logic (by simp [Instr.mnemonic])
  | .andAbsolute _ => .logic (by simp [Instr.mnemonic])
  | .andAbsoluteX _ => .logic (by simp [Instr.mnemonic])
  | .andAbsoluteY _ => .logic (by simp [Instr.mnemonic])
  | .andIndexedIndirectX _ => .logic (by simp [Instr.mnemonic])
  | .andIndirectIndexedY _ => .logic (by simp [Instr.mnemonic])
  | .oraImmediate _ => .logic (by simp [Instr.mnemonic])
  | .oraZeroPage _ => .logic (by simp [Instr.mnemonic])
  | .oraZeroPageX _ => .logic (by simp [Instr.mnemonic])
  | .oraAbsolute _ => .logic (by simp [Instr.mnemonic])
  | .oraAbsoluteX _ => .logic (by simp [Instr.mnemonic])
  | .oraAbsoluteY _ => .logic (by simp [Instr.mnemonic])
  | .oraIndexedIndirectX _ => .logic (by simp [Instr.mnemonic])
  | .oraIndirectIndexedY _ => .logic (by simp [Instr.mnemonic])
  | .eorImmediate _ => .logic (by simp [Instr.mnemonic])
  | .eorZeroPage _ => .logic (by simp [Instr.mnemonic])
  | .eorZeroPageX _ => .logic (by simp [Instr.mnemonic])
  | .eorAbsolute _ => .logic (by simp [Instr.mnemonic])
  | .eorAbsoluteX _ => .logic (by simp [Instr.mnemonic])
  | .eorAbsoluteY _ => .logic (by simp [Instr.mnemonic])
  | .eorIndexedIndirectX _ => .logic (by simp [Instr.mnemonic])
  | .eorIndirectIndexedY _ => .logic (by simp [Instr.mnemonic])
  | .bitZeroPage _ => .bitOperand rfl
  | .bitAbsolute _ => .bitOperand rfl
  | .cmpImmediate _ => .compareOperand (by simp [Instr.mnemonic])
  | .cmpZeroPage _ => .compareOperand (by simp [Instr.mnemonic])
  | .cmpZeroPageX _ => .compareOperand (by simp [Instr.mnemonic])
  | .cmpAbsolute _ => .compareOperand (by simp [Instr.mnemonic])
  | .cmpAbsoluteX _ => .compareOperand (by simp [Instr.mnemonic])
  | .cmpAbsoluteY _ => .compareOperand (by simp [Instr.mnemonic])
  | .cmpIndexedIndirectX _ => .compareOperand (by simp [Instr.mnemonic])
  | .cmpIndirectIndexedY _ => .compareOperand (by simp [Instr.mnemonic])
  | .cpxImmediate _ => .compareOperand (by simp [Instr.mnemonic])
  | .cpxZeroPage _ => .compareOperand (by simp [Instr.mnemonic])
  | .cpxAbsolute _ => .compareOperand (by simp [Instr.mnemonic])
  | .cpyImmediate _ => .compareOperand (by simp [Instr.mnemonic])
  | .cpyZeroPage _ => .compareOperand (by simp [Instr.mnemonic])
  | .cpyAbsolute _ => .compareOperand (by simp [Instr.mnemonic])
  | .incZeroPage _ => .modifyNZ (by simp [Instr.mnemonic])
  | .incZeroPageX _ => .modifyNZ (by simp [Instr.mnemonic])
  | .incAbsolute _ => .modifyNZ (by simp [Instr.mnemonic])
  | .incAbsoluteX _ => .modifyNZ (by simp [Instr.mnemonic])
  | .decZeroPage _ => .modifyNZ (by simp [Instr.mnemonic])
  | .decZeroPageX _ => .modifyNZ (by simp [Instr.mnemonic])
  | .decAbsolute _ => .modifyNZ (by simp [Instr.mnemonic])
  | .decAbsoluteX _ => .modifyNZ (by simp [Instr.mnemonic])
  | .inx => .inx
  | .iny => .iny
  | .dex => .dex
  | .dey => .dey
  | .aslZeroPage _ => .shiftMemory (by simp [Instr.mnemonic]) (by simp [Instr.mode])
  | .aslZeroPageX _ => .shiftMemory (by simp [Instr.mnemonic]) (by simp [Instr.mode])
  | .aslAbsolute _ => .shiftMemory (by simp [Instr.mnemonic]) (by simp [Instr.mode])
  | .aslAbsoluteX _ => .shiftMemory (by simp [Instr.mnemonic]) (by simp [Instr.mode])
  | .aslAccumulator => .shiftAccumulator (by simp [Instr.mnemonic]) (by simp [Instr.mode])
  | .lsrZeroPage _ => .shiftMemory (by simp [Instr.mnemonic]) (by simp [Instr.mode])
  | .lsrZeroPageX _ => .shiftMemory (by simp [Instr.mnemonic]) (by simp [Instr.mode])
  | .lsrAbsolute _ => .shiftMemory (by simp [Instr.mnemonic]) (by simp [Instr.mode])
  | .lsrAbsoluteX _ => .shiftMemory (by simp [Instr.mnemonic]) (by simp [Instr.mode])
  | .lsrAccumulator => .shiftAccumulator (by simp [Instr.mnemonic]) (by simp [Instr.mode])
  | .rolZeroPage _ => .shiftMemory (by simp [Instr.mnemonic]) (by simp [Instr.mode])
  | .rolZeroPageX _ => .shiftMemory (by simp [Instr.mnemonic]) (by simp [Instr.mode])
  | .rolAbsolute _ => .shiftMemory (by simp [Instr.mnemonic]) (by simp [Instr.mode])
  | .rolAbsoluteX _ => .shiftMemory (by simp [Instr.mnemonic]) (by simp [Instr.mode])
  | .rolAccumulator => .shiftAccumulator (by simp [Instr.mnemonic]) (by simp [Instr.mode])
  | .rorZeroPage _ => .shiftMemory (by simp [Instr.mnemonic]) (by simp [Instr.mode])
  | .rorZeroPageX _ => .shiftMemory (by simp [Instr.mnemonic]) (by simp [Instr.mode])
  | .rorAbsolute _ => .shiftMemory (by simp [Instr.mnemonic]) (by simp [Instr.mode])
  | .rorAbsoluteX _ => .shiftMemory (by simp [Instr.mnemonic]) (by simp [Instr.mode])
  | .rorAccumulator => .shiftAccumulator (by simp [Instr.mnemonic]) (by simp [Instr.mode])
  | .jmpAbsolute _ => .jmpAbsolute
  | .jmpIndirect _ => .jmpIndirect
  | .jsr _ => .jsr
  | .rts => .rts
  | .bcc _ => .branch (by simp [Instr.mnemonic])
  | .bcs _ => .branch (by simp [Instr.mnemonic])
  | .beq _ => .branch (by simp [Instr.mnemonic])
  | .bne _ => .branch (by simp [Instr.mnemonic])
  | .bmi _ => .branch (by simp [Instr.mnemonic])
  | .bpl _ => .branch (by simp [Instr.mnemonic])
  | .bvc _ => .branch (by simp [Instr.mnemonic])
  | .bvs _ => .branch (by simp [Instr.mnemonic])
  | .pha => .pha
  | .pla => .pla
  | .php => .php
  | .plp => .plp
  | .clc => .clc
  | .sec => .sec
  | .cld => .cld
  | .sed => .sed
  | .cli => .cli
  | .sei => .sei
  | .clv => .clv
  | .nop => .nop
  | .brk => .brk
  | .rti => .rti
  | .invalid _ => .invalid

/-! ## How each shared meaning ends -/

theorem branch_ends (cond : Bool) (off : Byte) (s : State) : Ends (branch cond off s) s := by
  unfold branch
  split
  · exact ends_registers s _ _ _ _ _ _
  · exact ends_registers s s.a s.x s.y s.p s.sp s.pc

theorem softwareBreak_reaches (s : State) : (softwareBreak s).Reaches s :=
  (pushWord_reaches _ s).andThen fun _ u => (push_reaches _ u).andThen fun _ v =>
    ((Reach.registers v v.a v.x v.y (setFlag maskI true v.p) v.sp v.pc).trans (readWord_onlyDraws _ _).reach).trans
      (Reach.registers _ _ _ _ _ _ _)

theorem softwareReturn_reaches (s : State) : (softwareReturn s).Reaches s :=
  (pop_reaches s).andThen fun _ _ => (popWord_reaches _).andThen fun _ u => Reach.registers u _ _ _ _ _ _

/-- A meaning `Runs` names ends by success or by Halt, in a state the instruction can reach. -/
theorem Runs.ends {s : State} {i : Instr} {o : Host.Outcome State Fault Refusal} (h : Runs s i o) : Ends o s := by
  cases h with
  | loadA | loadX | loadY | addOperand | subtractOperand | logic | bitOperand | compareOperand =>
    exact ends_read _ s _ _ _ _ _ _
  | store => exact ends_store _ _ s
  | modifyNZ | shiftMemory => exact ends_modify _ _ s _
  | branch => exact branch_ends _ _ s
  | pha | php => exact (push_reaches _ s).finish
  | pla | plp =>
    refine Res.Reaches.finish (Res.Reaches.andThen (pop_reaches s) ?_)
    exact fun _ u => Reach.registers u _ _ _ _ _ _
  | jsr =>
    refine Res.Reaches.finish (Res.Reaches.andThen (pushWord_reaches _ s) ?_)
    exact fun _ u => Reach.registers u _ _ _ _ _ _
  | rts =>
    refine Res.Reaches.finish (Res.Reaches.andThen (popWord_reaches s) ?_)
    exact fun _ u => Reach.registers u _ _ _ _ _ _
  | brk => exact (softwareBreak_reaches s).finish
  | rti => exact (softwareReturn_reaches s).finish
  | invalid => exact Res.Reaches.finish (r := .raise _ s) (Reach.refl s)
  | jmpIndirect => exact .inl ⟨_, rfl, (readWord_onlyDraws _ s).reach.trans (Reach.registers _ _ _ _ _ _ _)⟩
  | tax | tay | txa | tya | tsx | txs | inx | iny | dex | dey
    | jmpAbsolute | clc | sec | cld | sed | cli | sei | clv | nop =>
    exact ends_registers s _ _ _ _ _ _
  | shiftAccumulator => exact ends_registers s _ _ _ _ _ _

end Sys2Proof.Machine
end

