-- ==== Sys2Proof/Tests/Slice0.lean ====
section
/-! SUPPORT. The model's own tests: well-formedness, decoding of words written out from the spec's table,
single steps with the spec's own expected results, and for each obligation with hypotheses a witness that
meets them. Expected results are those of spec/95_test_vectors.md, part 2, row by row. -/

namespace Sys2Proof.Tests

open Sys2Proof Sys2Proof.Machine Sys2Proof.Safety

/-! ## Well-formedness -/

/-- The one check WellFormed makes: the slot of an `invalid` is not populated. 0xA9 is LDA. -/
theorem test_illformed_invalid : (Instr.invalid 0xA9).wellFormed = false := by decide
theorem test_wellformed_invalid : (Instr.invalid 0x02).wellFormed = true := by decide
theorem test_wellformed_lda : (Instr.ldaImmediate 0xFF).wellFormed = true := by decide
/-- The decoder never answers the ill-formed term. -/
theorem test_decode_not_invalid : decode [0xA9, 0x01] = .ok (.ldaImmediate 0x01, []) := rfl

/-! ## Decoding: every populated byte of 30_encoding.md R76, family by family

The opcode byte is the cell of R76; a one-byte operand is 0x80, a word operand is 34 12, low byte first
(R73). -/

/-- The bytes decode to exactly the instruction, with none left over. -/
def readsAs (bytes : List Byte) (i : Instr) : Bool :=
  match decode bytes with
  | .ok (j, rest) => j == i && rest == []
  | .error _ => false

/-- Words of 41_load_store_transfer.md. -/
theorem test_decode_loads :
    (readsAs [0xA9, 0x80] (.ldaImmediate 0x80) && readsAs [0xA5, 0x80] (.ldaZeroPage 0x80) &&
    readsAs [0xB5, 0x80] (.ldaZeroPageX 0x80) && readsAs [0xAD, 0x34, 0x12] (.ldaAbsolute 0x1234) &&
    readsAs [0xBD, 0x34, 0x12] (.ldaAbsoluteX 0x1234) && readsAs [0xB9, 0x34, 0x12] (.ldaAbsoluteY 0x1234) &&
    readsAs [0xA1, 0x80] (.ldaIndexedIndirectX 0x80) && readsAs [0xB1, 0x80] (.ldaIndirectIndexedY 0x80) &&
    readsAs [0xA2, 0x80] (.ldxImmediate 0x80) && readsAs [0xA6, 0x80] (.ldxZeroPage 0x80) &&
    readsAs [0xB6, 0x80] (.ldxZeroPageY 0x80) && readsAs [0xAE, 0x34, 0x12] (.ldxAbsolute 0x1234) &&
    readsAs [0xBE, 0x34, 0x12] (.ldxAbsoluteY 0x1234) && readsAs [0xA0, 0x80] (.ldyImmediate 0x80) &&
    readsAs [0xA4, 0x80] (.ldyZeroPage 0x80) && readsAs [0xB4, 0x80] (.ldyZeroPageX 0x80) &&
    readsAs [0xAC, 0x34, 0x12] (.ldyAbsolute 0x1234) && readsAs [0xBC, 0x34, 0x12] (.ldyAbsoluteX 0x1234)) = true := by decide

/-- Words of 41_load_store_transfer.md. -/
theorem test_decode_stores_transfers :
    (readsAs [0x85, 0x80] (.staZeroPage 0x80) && readsAs [0x95, 0x80] (.staZeroPageX 0x80) &&
    readsAs [0x8D, 0x34, 0x12] (.staAbsolute 0x1234) && readsAs [0x9D, 0x34, 0x12] (.staAbsoluteX 0x1234) &&
    readsAs [0x99, 0x34, 0x12] (.staAbsoluteY 0x1234) && readsAs [0x81, 0x80] (.staIndexedIndirectX 0x80) &&
    readsAs [0x91, 0x80] (.staIndirectIndexedY 0x80) && readsAs [0x86, 0x80] (.stxZeroPage 0x80) &&
    readsAs [0x96, 0x80] (.stxZeroPageY 0x80) && readsAs [0x8E, 0x34, 0x12] (.stxAbsolute 0x1234) &&
    readsAs [0x84, 0x80] (.styZeroPage 0x80) && readsAs [0x94, 0x80] (.styZeroPageX 0x80) &&
    readsAs [0x8C, 0x34, 0x12] (.styAbsolute 0x1234) && readsAs [0xAA] .tax &&
    readsAs [0xA8] .tay && readsAs [0x8A] .txa &&
    readsAs [0x98] .tya && readsAs [0xBA] .tsx &&
    readsAs [0x9A] .txs) = true := by decide

/-- Words of 42_arithmetic_logic.md. -/
theorem test_decode_adc_sbc :
    (readsAs [0x69, 0x80] (.adcImmediate 0x80) && readsAs [0x65, 0x80] (.adcZeroPage 0x80) &&
    readsAs [0x75, 0x80] (.adcZeroPageX 0x80) && readsAs [0x6D, 0x34, 0x12] (.adcAbsolute 0x1234) &&
    readsAs [0x7D, 0x34, 0x12] (.adcAbsoluteX 0x1234) && readsAs [0x79, 0x34, 0x12] (.adcAbsoluteY 0x1234) &&
    readsAs [0x61, 0x80] (.adcIndexedIndirectX 0x80) && readsAs [0x71, 0x80] (.adcIndirectIndexedY 0x80) &&
    readsAs [0xE9, 0x80] (.sbcImmediate 0x80) && readsAs [0xE5, 0x80] (.sbcZeroPage 0x80) &&
    readsAs [0xF5, 0x80] (.sbcZeroPageX 0x80) && readsAs [0xED, 0x34, 0x12] (.sbcAbsolute 0x1234) &&
    readsAs [0xFD, 0x34, 0x12] (.sbcAbsoluteX 0x1234) && readsAs [0xF9, 0x34, 0x12] (.sbcAbsoluteY 0x1234) &&
    readsAs [0xE1, 0x80] (.sbcIndexedIndirectX 0x80) && readsAs [0xF1, 0x80] (.sbcIndirectIndexedY 0x80)) = true := by decide

/-- Words of 42_arithmetic_logic.md. -/
theorem test_decode_logic_bit :
    (readsAs [0x29, 0x80] (.andImmediate 0x80) && readsAs [0x25, 0x80] (.andZeroPage 0x80) &&
    readsAs [0x35, 0x80] (.andZeroPageX 0x80) && readsAs [0x2D, 0x34, 0x12] (.andAbsolute 0x1234) &&
    readsAs [0x3D, 0x34, 0x12] (.andAbsoluteX 0x1234) && readsAs [0x39, 0x34, 0x12] (.andAbsoluteY 0x1234) &&
    readsAs [0x21, 0x80] (.andIndexedIndirectX 0x80) && readsAs [0x31, 0x80] (.andIndirectIndexedY 0x80) &&
    readsAs [0x09, 0x80] (.oraImmediate 0x80) && readsAs [0x05, 0x80] (.oraZeroPage 0x80) &&
    readsAs [0x15, 0x80] (.oraZeroPageX 0x80) && readsAs [0x0D, 0x34, 0x12] (.oraAbsolute 0x1234) &&
    readsAs [0x1D, 0x34, 0x12] (.oraAbsoluteX 0x1234) && readsAs [0x19, 0x34, 0x12] (.oraAbsoluteY 0x1234) &&
    readsAs [0x01, 0x80] (.oraIndexedIndirectX 0x80) && readsAs [0x11, 0x80] (.oraIndirectIndexedY 0x80) &&
    readsAs [0x49, 0x80] (.eorImmediate 0x80) && readsAs [0x45, 0x80] (.eorZeroPage 0x80) &&
    readsAs [0x55, 0x80] (.eorZeroPageX 0x80) && readsAs [0x4D, 0x34, 0x12] (.eorAbsolute 0x1234) &&
    readsAs [0x5D, 0x34, 0x12] (.eorAbsoluteX 0x1234) && readsAs [0x59, 0x34, 0x12] (.eorAbsoluteY 0x1234) &&
    readsAs [0x41, 0x80] (.eorIndexedIndirectX 0x80) && readsAs [0x51, 0x80] (.eorIndirectIndexedY 0x80) &&
    readsAs [0x24, 0x80] (.bitZeroPage 0x80) && readsAs [0x2C, 0x34, 0x12] (.bitAbsolute 0x1234)) = true := by decide

/-- Words of 42_arithmetic_logic.md. -/
theorem test_decode_compares :
    (readsAs [0xC9, 0x80] (.cmpImmediate 0x80) && readsAs [0xC5, 0x80] (.cmpZeroPage 0x80) &&
    readsAs [0xD5, 0x80] (.cmpZeroPageX 0x80) && readsAs [0xCD, 0x34, 0x12] (.cmpAbsolute 0x1234) &&
    readsAs [0xDD, 0x34, 0x12] (.cmpAbsoluteX 0x1234) && readsAs [0xD9, 0x34, 0x12] (.cmpAbsoluteY 0x1234) &&
    readsAs [0xC1, 0x80] (.cmpIndexedIndirectX 0x80) && readsAs [0xD1, 0x80] (.cmpIndirectIndexedY 0x80) &&
    readsAs [0xE0, 0x80] (.cpxImmediate 0x80) && readsAs [0xE4, 0x80] (.cpxZeroPage 0x80) &&
    readsAs [0xEC, 0x34, 0x12] (.cpxAbsolute 0x1234) && readsAs [0xC0, 0x80] (.cpyImmediate 0x80) &&
    readsAs [0xC4, 0x80] (.cpyZeroPage 0x80) && readsAs [0xCC, 0x34, 0x12] (.cpyAbsolute 0x1234)) = true := by decide

/-- Words of 43_incdec_shift.md. -/
theorem test_decode_inc_dec :
    (readsAs [0xE6, 0x80] (.incZeroPage 0x80) && readsAs [0xF6, 0x80] (.incZeroPageX 0x80) &&
    readsAs [0xEE, 0x34, 0x12] (.incAbsolute 0x1234) && readsAs [0xFE, 0x34, 0x12] (.incAbsoluteX 0x1234) &&
    readsAs [0xC6, 0x80] (.decZeroPage 0x80) && readsAs [0xD6, 0x80] (.decZeroPageX 0x80) &&
    readsAs [0xCE, 0x34, 0x12] (.decAbsolute 0x1234) && readsAs [0xDE, 0x34, 0x12] (.decAbsoluteX 0x1234) &&
    readsAs [0xE8] .inx && readsAs [0xC8] .iny &&
    readsAs [0xCA] .dex && readsAs [0x88] .dey) = true := by decide

/-- Words of 43_incdec_shift.md. -/
theorem test_decode_shifts :
    (readsAs [0x06, 0x80] (.aslZeroPage 0x80) && readsAs [0x16, 0x80] (.aslZeroPageX 0x80) &&
    readsAs [0x0E, 0x34, 0x12] (.aslAbsolute 0x1234) && readsAs [0x1E, 0x34, 0x12] (.aslAbsoluteX 0x1234) &&
    readsAs [0x0A] .aslAccumulator && readsAs [0x46, 0x80] (.lsrZeroPage 0x80) &&
    readsAs [0x56, 0x80] (.lsrZeroPageX 0x80) && readsAs [0x4E, 0x34, 0x12] (.lsrAbsolute 0x1234) &&
    readsAs [0x5E, 0x34, 0x12] (.lsrAbsoluteX 0x1234) && readsAs [0x4A] .lsrAccumulator &&
    readsAs [0x26, 0x80] (.rolZeroPage 0x80) && readsAs [0x36, 0x80] (.rolZeroPageX 0x80) &&
    readsAs [0x2E, 0x34, 0x12] (.rolAbsolute 0x1234) && readsAs [0x3E, 0x34, 0x12] (.rolAbsoluteX 0x1234) &&
    readsAs [0x2A] .rolAccumulator && readsAs [0x66, 0x80] (.rorZeroPage 0x80) &&
    readsAs [0x76, 0x80] (.rorZeroPageX 0x80) && readsAs [0x6E, 0x34, 0x12] (.rorAbsolute 0x1234) &&
    readsAs [0x7E, 0x34, 0x12] (.rorAbsoluteX 0x1234) && readsAs [0x6A] .rorAccumulator) = true := by decide

/-- Words of 44_control_flow.md. -/
theorem test_decode_control :
    (readsAs [0x4C, 0x34, 0x12] (.jmpAbsolute 0x1234) && readsAs [0x6C, 0x34, 0x12] (.jmpIndirect 0x1234) &&
    readsAs [0x20, 0x34, 0x12] (.jsr 0x1234) && readsAs [0x60] .rts &&
    readsAs [0x90, 0x80] (.bcc 0x80) && readsAs [0xB0, 0x80] (.bcs 0x80) &&
    readsAs [0xF0, 0x80] (.beq 0x80) && readsAs [0xD0, 0x80] (.bne 0x80) &&
    readsAs [0x30, 0x80] (.bmi 0x80) && readsAs [0x10, 0x80] (.bpl 0x80) &&
    readsAs [0x50, 0x80] (.bvc 0x80) && readsAs [0x70, 0x80] (.bvs 0x80)) = true := by decide

/-- Words of 45_stack_flags_system.md. -/
theorem test_decode_stack_flags_system :
    (readsAs [0x48] .pha && readsAs [0x68] .pla &&
    readsAs [0x08] .php && readsAs [0x28] .plp &&
    readsAs [0x18] .clc && readsAs [0x38] .sec &&
    readsAs [0xD8] .cld && readsAs [0xF8] .sed &&
    readsAs [0x58] .cli && readsAs [0x78] .sei &&
    readsAs [0xB8] .clv && readsAs [0xEA] .nop &&
    readsAs [0x00] .brk && readsAs [0x40] .rti) = true := by decide

/-- Slots of R78: size 1, the rest is not consumed. -/
theorem test_decode_invalid :
    decode [0x02] = .ok (.invalid 0x02, []) ∧ decode [0x80, 0x00] = .ok (.invalid 0x80, [0x00]) ∧
    decode [0xFF] = .ok (.invalid 0xFF, []) := ⟨rfl, rfl, rfl⟩

/-- One word bit by bit: LDA absolute is 10101101, then the low and the high byte of 0x1234. -/
theorem test_decode_bits : decode [0b10101101, 0b00110100, 0b00010010] = .ok (.ldaAbsolute 0x1234, []) := rfl
/-- Too few bytes are rejected by name. -/
theorem test_decode_short : decode [0xAD, 0x34] = .error (.truncated 0xAD) := rfl
/-- The opcode table's numbering: the second byte is bits 15..8. -/
theorem test_table_word : decodeTableWord 16 0x80A9 = some (.ldaImmediate 0x80) := by decide
/-- A row without operand bits reads zeros. -/
theorem test_table_word_short : decodeTableWord 8 0x4C = some (.jmpAbsolute 0) := by decide
theorem test_encode_jsr : encode (.jsr 0x1234) = [0x20, 0x34, 0x12] := by decide

/-! ## Single steps (95_test_vectors.md part 2) -/

/-- The conventions of part 2: the reset state, Running, the bytes placed at `at`, PC there; RNG_ADDR is
0x77, which no row reads. -/
def start (addr : Word) (bytes : List Byte) : State :=
  { State.reset with rngAddr := 0x77, runningState := true, pc := addr, mem := loadBytes addr bytes [] }

/-- `s` with one more memory byte. -/
def poke (addr : Nat) (v : Byte) (s : State) : State := { s with mem := Memory.set s.mem addr v }

/-- The step from `s` answers a next state with the property `f`. -/
def steps (s : State) (f : State → Bool) : Bool :=
  match step s with
  | .next t => f t
  | _ => false

/-- `A9 7F`: N and Z cleared, C and V kept. -/
theorem test_step_lda_1 :
    steps { start 0x0200 [0xA9, 0x7F] with p := 0xC3 }
      (fun t => t.p == 0x41 && t.pc == 0x0202 && t.a == 0x7F) = true := by decide

/-- `A1 FE`: (zp,X): pointer at 0xFF, high byte from 0x0100. -/
theorem test_step_lda_2 :
    steps (poke 0x7734 0xEE (poke 0x1234 0xAB (poke 0x0000 0x77 (poke 0x0100 0x12 (poke 0x00FF 0x34 { start 0x0200
        [0xA1, 0xFE] with x := 0x01 })))))
      (fun t => t.p == 0x80 && t.pc == 0x0202 && t.a == 0xAB) = true := by decide

/-- `A2 FF`: LDX, N. -/
theorem test_step_ldx_1 :
    steps (start 0x0200 [0xA2, 0xFF])
      (fun t => t.p == 0x80 && t.pc == 0x0202 && t.a == 0x00 && t.x == 0xFF) = true := by decide

/-- `B6 FF`: ZeroPageY wraps to 0x0001. -/
theorem test_step_ldx_2 :
    steps (poke 0x0101 0xEE (poke 0x0001 0x44 { start 0x0200 [0xB6, 0xFF] with y := 0x02 }))
      (fun t => t.p == 0x00 && t.pc == 0x0202 && t.a == 0x00 && t.x == 0x44) = true := by decide

/-- `A0 00`: LDY, Z set, N cleared. -/
theorem test_step_ldy_1 :
    steps { start 0x0200 [0xA0, 0x00] with p := 0x80 }
      (fun t => t.p == 0x02 && t.pc == 0x0202 && t.a == 0x00) = true := by decide

/-- `8D 00 FC`: store into the display window: one sink call. -/
theorem test_step_sta_1 :
    steps { start 0x0200 [0x8D, 0x00, 0xFC] with a := 0x07 }
      (fun t => t.p == 0x00 && t.pc == 0x0203 && t.a == 0x07 && Memory.get t.mem 0xFC00 == 0x07 && t.sink == [(0xFC00,
          0x07)]) = true := by decide

/-- `99 F0 FF`: last cell of the window. -/
theorem test_step_sta_2 :
    steps { start 0x0200 [0x99, 0xF0, 0xFF] with a := 0x81, y := 0x0F }
      (fun t => t.p == 0x00 && t.pc == 0x0203 && t.a == 0x81 && Memory.get t.mem 0xFFFF == 0x81 && t.sink == [(0xFFFF,
          0x81)]) = true := by decide

/-- `96 FF`: STX zp,Y wraps to 0x0000. -/
theorem test_step_stx_1 :
    steps { start 0x0200 [0x96, 0xFF] with x := 0x3C, y := 0x01 }
      (fun t => t.p == 0x00 && t.pc == 0x0202 && t.a == 0x00 && Memory.get t.mem 0x0000 == 0x3C && Memory.get t.mem
          0x0100 == 0x00) = true := by decide

/-- `94 10`: STY zp,X. -/
theorem test_step_sty_1 :
    steps { start 0x0200 [0x94, 0x10] with y := 0x3C, x := 0x05 }
      (fun t => t.p == 0x00 && t.pc == 0x0202 && t.a == 0x00 && Memory.get t.mem 0x0015 == 0x3C) = true := by decide

/-- `AA`: TAX, N. -/
theorem test_step_tax_1 :
    steps { start 0x0200 [0xAA] with a := 0x80 }
      (fun t => t.p == 0x80 && t.pc == 0x0201 && t.a == 0x80 && t.x == 0x80) = true := by decide

/-- `A8`: TAY, Z. -/
theorem test_step_tay_1 :
    steps { start 0x0200 [0xA8] with a := 0x00, p := 0x80 }
      (fun t => t.p == 0x02 && t.pc == 0x0201 && t.a == 0x00) = true := by decide

/-- `8A`: TXA clears N and Z. -/
theorem test_step_txa_1 :
    steps { start 0x0200 [0x8A] with x := 0x01, p := 0x82 }
      (fun t => t.p == 0x00 && t.pc == 0x0201 && t.a == 0x01) = true := by decide

/-- `98`: TYA. -/
theorem test_step_tya_1 :
    steps { start 0x0200 [0x98] with y := 0xFF }
      (fun t => t.p == 0x80 && t.pc == 0x0201 && t.a == 0xFF) = true := by decide

/-- `BA`: TSX, Z. -/
theorem test_step_tsx_1 :
    steps { start 0x0200 [0xBA] with sp := 0x00 }
      (fun t => t.p == 0x02 && t.pc == 0x0201 && t.a == 0x00) = true := by decide

/-- `9A`: TXS leaves Z as it was. -/
theorem test_step_txs_1 :
    steps { start 0x0200 [0x9A] with x := 0x80, p := 0x02 }
      (fun t => t.p == 0x02 && t.pc == 0x0201 && t.a == 0x00 && t.sp == 0x80) = true := by decide

/-- `69 80`: -128 + -128: V, C, Z. -/
theorem test_step_adc_1 :
    steps { start 0x0200 [0x69, 0x80] with a := 0x80 }
      (fun t => t.p == 0x43 && t.pc == 0x0202 && t.a == 0x00) = true := by decide

/-- `69 46`: decimal: 58+46=104: A=0x04, C; V from binary 0x9E. -/
theorem test_step_adc_2 :
    steps { start 0x0200 [0x69, 0x46] with a := 0x58, p := 0x08 }
      (fun t => t.p == 0x49 && t.pc == 0x0202 && t.a == 0x04) = true := by decide

/-- `E9 01`: -128-1: V. -/
theorem test_step_sbc_1 :
    steps { start 0x0200 [0xE9, 0x01] with a := 0x80, p := 0x01 }
      (fun t => t.p == 0x41 && t.pc == 0x0202 && t.a == 0x7F) = true := by decide

/-- `E9 00`: decimal, borrow in: 00-00-1=99, C=0. -/
theorem test_step_sbc_2 :
    steps { start 0x0200 [0xE9, 0x00] with a := 0x00, p := 0x08 }
      (fun t => t.p == 0x88 && t.pc == 0x0202 && t.a == 0x99) = true := by decide

/-- `29 0F`: AND to zero: Z, N cleared, C kept. -/
theorem test_step_and_1 :
    steps { start 0x0200 [0x29, 0x0F] with a := 0xF0, p := 0x81 }
      (fun t => t.p == 0x03 && t.pc == 0x0202 && t.a == 0x00) = true := by decide

/-- `09 80`: ORA. -/
theorem test_step_ora_1 :
    steps { start 0x0200 [0x09, 0x80] with a := 0x01 }
      (fun t => t.p == 0x80 && t.pc == 0x0202 && t.a == 0x81) = true := by decide

/-- `49 FF`: EOR. -/
theorem test_step_eor_1 :
    steps { start 0x0200 [0x49, 0xFF] with a := 0x0F }
      (fun t => t.p == 0x80 && t.pc == 0x0202 && t.a == 0xF0) = true := by decide

/-- `24 10`: BIT: N, V from memory, Z from A and m; A unchanged. -/
theorem test_step_bit_1 :
    steps (poke 0x0010 0xC0 { start 0x0200 [0x24, 0x10] with a := 0x01 })
      (fun t => t.p == 0xC2 && t.pc == 0x0202 && t.a == 0x01) = true := by decide

/-- `24 10`: BIT clears N, V, Z. -/
theorem test_step_bit_2 :
    steps (poke 0x0010 0x3F { start 0x0200 [0x24, 0x10] with a := 0xFF, p := 0xC2 })
      (fun t => t.p == 0x00 && t.pc == 0x0202 && t.a == 0xFF) = true := by decide

/-- `C9 40`: CMP less: C cleared, N from 0xF0. -/
theorem test_step_cmp_1 :
    steps { start 0x0200 [0xC9, 0x40] with a := 0x30, p := 0x01 }
      (fun t => t.p == 0x80 && t.pc == 0x0202 && t.a == 0x30) = true := by decide

/-- `C9 01`: CMP: 0x80-0x01=0x7F, N clear; V untouched. -/
theorem test_step_cmp_2 :
    steps { start 0x0200 [0xC9, 0x01] with a := 0x80, p := 0x40 }
      (fun t => t.p == 0x41 && t.pc == 0x0202 && t.a == 0x80) = true := by decide

/-- `E4 20`: CPX less, zero page. -/
theorem test_step_cpx_1 :
    steps (poke 0x0020 0x06 { start 0x0200 [0xE4, 0x20] with x := 0x05 })
      (fun t => t.p == 0x80 && t.pc == 0x0202 && t.a == 0x00) = true := by decide

/-- `C0 00`: CPY greater: N from 0xFF. -/
theorem test_step_cpy_1 :
    steps { start 0x0200 [0xC0, 0x00] with y := 0xFF }
      (fun t => t.p == 0x81 && t.pc == 0x0202 && t.a == 0x00) = true := by decide

/-- `E6 10`: INC to 0x80: N; C untouched. -/
theorem test_step_inc_1 :
    steps (poke 0x0010 0x7F { start 0x0200 [0xE6, 0x10] with p := 0x01 })
      (fun t => t.p == 0x81 && t.pc == 0x0202 && t.a == 0x00 && Memory.get t.mem 0x0010 == 0x80) = true := by decide

/-- `EE 05 FC`: INC in the display window: one sink call with the new value. -/
theorem test_step_inc_2 :
    steps (poke 0xFC05 0x41 (start 0x0200 [0xEE, 0x05, 0xFC]))
      (fun t => t.p == 0x00 && t.pc == 0x0203 && t.a == 0x00 && Memory.get t.mem 0xFC05 == 0x42 && t.sink == [(0xFC05,
          0x42)]) = true := by decide

/-- `C6 10`: DEC wraps to 0xFF: N. -/
theorem test_step_dec_1 :
    steps (poke 0x0010 0x00 (start 0x0200 [0xC6, 0x10]))
      (fun t => t.p == 0x80 && t.pc == 0x0202 && t.a == 0x00 && Memory.get t.mem 0x0010 == 0xFF) = true := by decide

/-- `E8`: INX wraps. -/
theorem test_step_inx_1 :
    steps { start 0x0200 [0xE8] with x := 0xFF }
      (fun t => t.p == 0x02 && t.pc == 0x0201 && t.a == 0x00 && t.x == 0x00) = true := by decide

/-- `C8`: INY to 0x80. -/
theorem test_step_iny_1 :
    steps { start 0x0200 [0xC8] with y := 0x7F }
      (fun t => t.p == 0x80 && t.pc == 0x0201 && t.a == 0x00 && t.y == 0x80) = true := by decide

/-- `CA`: DEX wraps. -/
theorem test_step_dex_1 :
    steps { start 0x0200 [0xCA] with x := 0x00 }
      (fun t => t.p == 0x80 && t.pc == 0x0201 && t.a == 0x00 && t.x == 0xFF) = true := by decide

/-- `88`: DEY to 0. -/
theorem test_step_dey_1 :
    steps { start 0x0200 [0x88] with y := 0x01 }
      (fun t => t.p == 0x02 && t.pc == 0x0201 && t.a == 0x00 && t.y == 0x00) = true := by decide

/-- `0A`: ASL A: C cleared, N. -/
theorem test_step_asl_1 :
    steps { start 0x0200 [0x0A] with a := 0x41, p := 0x01 }
      (fun t => t.p == 0x80 && t.pc == 0x0201 && t.a == 0x82) = true := by decide

/-- `06 10`: ASL memory. -/
theorem test_step_asl_2 :
    steps (poke 0x0010 0xC0 (start 0x0200 [0x06, 0x10]))
      (fun t => t.p == 0x81 && t.pc == 0x0202 && t.a == 0x00 && Memory.get t.mem 0x0010 == 0x80) = true := by decide

/-- `4A`: LSR A: bit 0 to C, Z, N cleared. -/
theorem test_step_lsr_1 :
    steps { start 0x0200 [0x4A] with a := 0x01, p := 0x80 }
      (fun t => t.p == 0x03 && t.pc == 0x0201 && t.a == 0x00) = true := by decide

/-- `4E 00 03`: LSR memory. -/
theorem test_step_lsr_2 :
    steps (poke 0x0300 0xFE (start 0x0200 [0x4E, 0x00, 0x03]))
      (fun t => t.p == 0x00 && t.pc == 0x0203 && t.a == 0x00 && Memory.get t.mem 0x0300 == 0x7F) = true := by decide

/-- `2A`: ROL A: old C to bit 0, bit 7 to C. -/
theorem test_step_rol_1 :
    steps { start 0x0200 [0x2A] with a := 0x80, p := 0x01 }
      (fun t => t.p == 0x01 && t.pc == 0x0201 && t.a == 0x01) = true := by decide

/-- `26 10`: ROL memory: C into bit 0, C cleared. -/
theorem test_step_rol_2 :
    steps (poke 0x0010 0x00 { start 0x0200 [0x26, 0x10] with p := 0x01 })
      (fun t => t.p == 0x00 && t.pc == 0x0202 && t.a == 0x00 && Memory.get t.mem 0x0010 == 0x01) = true := by decide

/-- `6A`: ROR A: old C to bit 7, N. -/
theorem test_step_ror_1 :
    steps { start 0x0200 [0x6A] with a := 0x00, p := 0x01 }
      (fun t => t.p == 0x80 && t.pc == 0x0201 && t.a == 0x80) = true := by decide

/-- `7E 00 03`: ROR AbsoluteX. -/
theorem test_step_ror_2 :
    steps (poke 0x0302 0x03 { start 0x0200 [0x7E, 0x00, 0x03] with x := 0x02, p := 0x01 })
      (fun t => t.p == 0x81 && t.pc == 0x0203 && t.a == 0x00 && Memory.get t.mem 0x0302 == 0x81) = true := by decide

/-- `4C 00 30`: JMP absolute. -/
theorem test_step_jmp_1 :
    steps (start 0x0200 [0x4C, 0x00, 0x30])
      (fun t => t.p == 0x00 && t.pc == 0x3000 && t.a == 0x00) = true := by decide

/-- `6C FF 12`: pointer at a page end: high byte from 0x1300, not 0x1200. -/
theorem test_step_jmp_2 :
    steps (poke 0x1200 0x99 (poke 0x1300 0x56 (poke 0x12FF 0x78 (start 0x0200 [0x6C, 0xFF, 0x12]))))
      (fun t => t.p == 0x00 && t.pc == 0x5678 && t.a == 0x00) = true := by decide

/-- `20 34 12`: JSR at 0x12FE: last byte at 0x1300. -/
theorem test_step_jsr_1 :
    steps (start 0x12FE [0x20, 0x34, 0x12])
      (fun t => t.p == 0x00 && t.pc == 0x1234 && t.a == 0x00 && t.sp == 0xFD && Memory.get t.mem 0x01FE == 0x13 &&
          Memory.get t.mem 0x01FD == 0x00) = true := by decide

/-- `20 00 30`: second push faults; first push stays. -/
theorem test_step_jsr_2 :
    steps { start 0x0200 [0x20, 0x00, 0x30] with sp := 0x01 }
      (fun t => t.p == 0x00 && t.pc == 0x0203 && t.a == 0x00 && t.sp == 0x00 && Memory.get t.mem 0x0100 == 0x02 &&
          t.lastFault == some .stackOverflow && t.errorState) = true := by decide

/-- `60`: RTS: 0xFFFF + 1 wraps to 0x0000. -/
theorem test_step_rts_1 :
    steps (poke 0x01FE 0xFF (poke 0x01FD 0xFF { start 0x0200 [0x60] with sp := 0xFD }))
      (fun t => t.p == 0x00 && t.pc == 0x0000 && t.a == 0x00 && t.sp == 0xFF) = true := by decide

/-- `60`: RTS with one byte on the stack: low byte popped, then fault; PC not written. -/
theorem test_step_rts_2 :
    steps (poke 0x01FE 0x55 { start 0x0200 [0x60] with sp := 0xFE })
      (fun t => t.p == 0x00 && t.pc == 0x0201 && t.a == 0x00 && t.sp == 0xFF && t.lastFault == some .stackUnderflow &&
          t.errorState) = true := by decide

/-- `90 10`: BCC taken. -/
theorem test_step_bcc_1 :
    steps { start 0x0200 [0x90, 0x10] with p := 0x00 }
      (fun t => t.p == 0x00 && t.pc == 0x0212 && t.a == 0x00) = true := by decide

/-- `90 10`: BCC not taken. -/
theorem test_step_bcc_2 :
    steps { start 0x0200 [0x90, 0x10] with p := 0x01 }
      (fun t => t.p == 0x01 && t.pc == 0x0202 && t.a == 0x00) = true := by decide

/-- `B0 10`: BCS taken. -/
theorem test_step_bcs_1 :
    steps { start 0x0200 [0xB0, 0x10] with p := 0x01 }
      (fun t => t.p == 0x01 && t.pc == 0x0212 && t.a == 0x00) = true := by decide

/-- `B0 10`: BCS not taken. -/
theorem test_step_bcs_2 :
    steps { start 0x0200 [0xB0, 0x10] with p := 0xFE }
      (fun t => t.p == 0xFE && t.pc == 0x0202 && t.a == 0x00) = true := by decide

/-- `F0 80`: BEQ taken, largest backward offset: 0x0202 - 0x80. -/
theorem test_step_beq_1 :
    steps { start 0x0200 [0xF0, 0x80] with p := 0x02 }
      (fun t => t.p == 0x02 && t.pc == 0x0182 && t.a == 0x00) = true := by decide

/-- `F0 10`: BEQ not taken. -/
theorem test_step_beq_2 :
    steps { start 0x0200 [0xF0, 0x10] with p := 0x00 }
      (fun t => t.p == 0x00 && t.pc == 0x0202 && t.a == 0x00) = true := by decide

/-- `D0 FA`: BNE taken backward, SRC fixture computeBranch(0x0208, 0xFA). -/
theorem test_step_bne_1 :
    steps (start 0x0206 [0xD0, 0xFA])
      (fun t => t.p == 0x00 && t.pc == 0x0202 && t.a == 0x00) = true := by decide

/-- `D0 06`: BNE not taken: offset byte still fetched. -/
theorem test_step_bne_2 :
    steps { start 0x0206 [0xD0, 0x06] with p := 0x02 }
      (fun t => t.p == 0x02 && t.pc == 0x0208 && t.a == 0x00) = true := by decide

/-- `30 10`: BMI taken. -/
theorem test_step_bmi_1 :
    steps { start 0x0200 [0x30, 0x10] with p := 0x80 }
      (fun t => t.p == 0x80 && t.pc == 0x0212 && t.a == 0x00) = true := by decide

/-- `30 10`: BMI not taken. -/
theorem test_step_bmi_2 :
    steps { start 0x0200 [0x30, 0x10] with p := 0x7F }
      (fun t => t.p == 0x7F && t.pc == 0x0202 && t.a == 0x00) = true := by decide

/-- `10 10`: BPL taken. -/
theorem test_step_bpl_1 :
    steps { start 0x0200 [0x10, 0x10] with p := 0x00 }
      (fun t => t.p == 0x00 && t.pc == 0x0212 && t.a == 0x00) = true := by decide

/-- `10 10`: BPL not taken. -/
theorem test_step_bpl_2 :
    steps { start 0x0200 [0x10, 0x10] with p := 0x80 }
      (fun t => t.p == 0x80 && t.pc == 0x0202 && t.a == 0x00) = true := by decide

/-- `50 F0`: BVC taken backward from 0x0002: wraps to 0xFFF2. -/
theorem test_step_bvc_1 :
    steps (start 0x0000 [0x50, 0xF0])
      (fun t => t.p == 0x00 && t.pc == 0xFFF2 && t.a == 0x00) = true := by decide

/-- `50 10`: BVC not taken. -/
theorem test_step_bvc_2 :
    steps { start 0x0200 [0x50, 0x10] with p := 0x40 }
      (fun t => t.p == 0x40 && t.pc == 0x0202 && t.a == 0x00) = true := by decide

/-- `70 20`: BVS taken forward from 0xFFF2: wraps to 0x0012. -/
theorem test_step_bvs_1 :
    steps { start 0xFFF0 [0x70, 0x20] with p := 0x40 }
      (fun t => t.p == 0x40 && t.pc == 0x0012 && t.a == 0x00) = true := by decide

/-- `70 20`: BVS not taken. -/
theorem test_step_bvs_2 :
    steps { start 0x0200 [0x70, 0x20] with p := 0x00 }
      (fun t => t.p == 0x00 && t.pc == 0x0202 && t.a == 0x00) = true := by decide

/-- `48`: PHA: SP decremented first; 0x01FF never written. -/
theorem test_step_pha_1 :
    steps { start 0x0200 [0x48] with a := 0x5A }
      (fun t => t.p == 0x00 && t.pc == 0x0201 && t.a == 0x5A && t.sp == 0xFE && Memory.get t.mem 0x01FE == 0x5A &&
          Memory.get t.mem 0x01FF == 0x00) = true := by decide

/-- `48`: push on a full stack. -/
theorem test_step_pha_2 :
    steps { start 0x0200 [0x48] with a := 0x5A, sp := 0x00 }
      (fun t => t.p == 0x00 && t.pc == 0x0201 && t.a == 0x5A && Memory.get t.mem 0x0100 == 0x00 && Memory.get t.mem
          0x01FF == 0x00 && t.lastFault == some .stackOverflow && t.errorState) = true := by decide

/-- `68`: PLA sets Z. -/
theorem test_step_pla_1 :
    steps (poke 0x01FE 0x00 { start 0x0200 [0x68] with sp := 0xFE, p := 0x80 })
      (fun t => t.p == 0x02 && t.pc == 0x0201 && t.a == 0x00 && t.sp == 0xFF) = true := by decide

/-- `68`: pull on the empty stack. -/
theorem test_step_pla_2 :
    steps { start 0x0200 [0x68] with p := 0x41 }
      (fun t => t.p == 0x41 && t.pc == 0x0201 && t.a == 0x00 && t.lastFault == some .stackUnderflow && t.errorState) =
          true := by decide

/-- `08`: PHP pushes P as stored (bits 4, 5 not forced). -/
theorem test_step_php_1 :
    steps { start 0x0200 [0x08] with p := 0xC3 }
      (fun t => t.p == 0xC3 && t.pc == 0x0201 && t.a == 0x00 && t.sp == 0xFE && Memory.get t.mem 0x01FE == 0xC3) =
          true := by decide

/-- `28`: PLP loads all eight bits. -/
theorem test_step_plp_1 :
    steps (poke 0x01FE 0xFF { start 0x0200 [0x28] with sp := 0xFE })
      (fun t => t.p == 0xFF && t.pc == 0x0201 && t.a == 0x00 && t.sp == 0xFF) = true := by decide

/-- `18`: CLC. -/
theorem test_step_clc_1 :
    steps { start 0x0200 [0x18] with p := 0xFF }
      (fun t => t.p == 0xFE && t.pc == 0x0201 && t.a == 0x00) = true := by decide

/-- `38`: SEC. -/
theorem test_step_sec_1 :
    steps (start 0x0200 [0x38])
      (fun t => t.p == 0x01 && t.pc == 0x0201 && t.a == 0x00) = true := by decide

/-- `D8`: CLD. -/
theorem test_step_cld_1 :
    steps { start 0x0200 [0xD8] with p := 0xFF }
      (fun t => t.p == 0xF7 && t.pc == 0x0201 && t.a == 0x00) = true := by decide

/-- `F8`: SED. -/
theorem test_step_sed_1 :
    steps (start 0x0200 [0xF8])
      (fun t => t.p == 0x08 && t.pc == 0x0201 && t.a == 0x00) = true := by decide

/-- `58`: CLI. -/
theorem test_step_cli_1 :
    steps { start 0x0200 [0x58] with p := 0xFF }
      (fun t => t.p == 0xFB && t.pc == 0x0201 && t.a == 0x00) = true := by decide

/-- `78`: SEI. -/
theorem test_step_sei_1 :
    steps (start 0x0200 [0x78])
      (fun t => t.p == 0x04 && t.pc == 0x0201 && t.a == 0x00) = true := by decide

/-- `B8`: CLV. -/
theorem test_step_clv_1 :
    steps { start 0x0200 [0xB8] with p := 0xFF }
      (fun t => t.p == 0xBF && t.pc == 0x0201 && t.a == 0x00) = true := by decide

/-- `EA`: NOP. -/
theorem test_step_nop_1 :
    steps { start 0x0200 [0xEA] with a := 0x01, x := 0x02, y := 0x03, p := 0xC3 }
      (fun t => t.p == 0xC3 && t.pc == 0x0201 && t.a == 0x01) = true := by decide

/-- `00`: BRK: pushed P has bit 4; P gets I only. -/
theorem test_step_brk_1 :
    steps (poke 0xFFFF 0x30 (poke 0xFFFE 0x00 { start 0x0200 [0x00] with p := 0xC1 }))
      (fun t => t.p == 0xC5 && t.pc == 0x3000 && t.a == 0x00 && t.sp == 0xFC && Memory.get t.mem 0x01FE == 0x02 &&
          Memory.get t.mem 0x01FD == 0x02 && Memory.get t.mem 0x01FC == 0xD1) = true := by decide

/-- `00`: BRK: third push faults; P.I not yet set; PC=0x0201. -/
theorem test_step_brk_2 :
    steps { start 0x0200 [0x00] with sp := 0x02 }
      (fun t => t.p == 0x00 && t.pc == 0x0201 && t.a == 0x00 && t.sp == 0x00 && Memory.get t.mem 0x0101 == 0x02 &&
          Memory.get t.mem 0x0100 == 0x02 && t.lastFault == some .stackOverflow && t.errorState) = true := by
          decide

/-- `40`: RTI: P from stack, PC=0x0202 with no increment. -/
theorem test_step_rti_1 :
    steps (poke 0x01FE 0x02 (poke 0x01FD 0x02 (poke 0x01FC 0x91 { start 0x0200 [0x40] with sp := 0xFC })))
      (fun t => t.p == 0x91 && t.pc == 0x0202 && t.a == 0x00 && t.sp == 0xFF) = true := by decide

/-- `40`: RTI: second pop faults; P and PC not written. -/
theorem test_step_rti_2 :
    steps (poke 0x01FE 0xC0 { start 0x0200 [0x40] with sp := 0xFE, p := 0x01 })
      (fun t => t.p == 0x01 && t.pc == 0x0201 && t.a == 0x00 && t.sp == 0xFF && t.lastFault == some .stackUnderflow &&
          t.errorState) = true := by decide

/-- `02`: unpopulated slot. -/
theorem test_step_invalid_1 :
    steps (start 0x0200 [0x02])
      (fun t => t.p == 0x00 && t.pc == 0x0201 && t.a == 0x00 && t.lastFault == some (.invalidOpcode 0x02) &&
          t.errorState) = true := by decide

/-- `80 00`: undocumented 2-byte NOP: invalid, size 1: PC advanced by 1 only. -/
theorem test_step_invalid_2 :
    steps (start 0x0200 [0x80, 0x00])
      (fun t => t.p == 0x00 && t.pc == 0x0201 && t.a == 0x00 && t.lastFault == some (.invalidOpcode 0x80) &&
          t.errorState) = true := by decide

/-! ## The random-number tap (95_test_vectors.md 2.7), with RNG_ADDR = 0xFE

The draw is the free value `Config.draw`, so a result is stated through it. -/

/-- The start state of 2.7. -/
def startFE (bytes : List Byte) : State := { start 0x0200 bytes with rngAddr := 0xFE }

/-- A read of the tap returns the draw, not the stored byte, and the next read the next draw. -/
theorem test_tap_read : (memRead 0x00FE (poke 0x00FE 0x11 (startFE []))).1 = Config.draw 0 ∧
    (memRead 0x00FE (memRead 0x00FE (startFE [])).2).1 = Config.draw 1 := ⟨rfl, rfl⟩
/-- A store to the tap is kept, and draws nothing. -/
theorem test_tap_write : Memory.get (memWrite 0x00FE 0x55 (startFE [])).mem 0x00FE = 0x55 ∧
    (memWrite 0x00FE 0x55 (startFE [])).draws = 0 := by decide
/-- Read-modify-write of the tap reads a draw and stores the draw plus one. -/
theorem test_tap_modify : (modify (.zeroPage 0xFE) (· + 1) (poke 0x00FE 0x11 (startFE []))).1 =
    (Config.draw 0, Config.draw 0 + 1) := rfl
/-- A pointer's high byte is a draw when the pointer straddles the tap. -/
theorem test_tap_pointer : (readWord 0x00FD (startFE [])).1 = wordOf 0x00 (Config.draw 0) := rfl
/-- With RNG_ADDR elsewhere 0x00FE is ordinary memory. -/
theorem test_tap_elsewhere :
    (memRead 0x00FE (poke 0x00FE 0x11 { startFE [] with rngAddr := 0x10 })).1 = 0x11 := by decide
/-- 0x01FE is not the tap although its low byte is RNG_ADDR. -/
theorem test_tap_page_one : (startFE []).isTap 0x01FE = false ∧ (startFE []).isTap 0x00FE = true := by decide

/-! ## Decimal operands that are not valid BCD (42_arithmetic_logic.md, ADC: A=0x0F, D, ADC #$01 gives 0x16) -/

theorem test_adc_not_bcd : (adc 0x0F 0x01 false true).result = 0x16 ∧ (adc 0x0F 0x01 false true).carry = false := by
  decide

/-! ## Host commands, memory form, the batch -/

theorem test_reset_legal : Memory.wf State.reset.mem = true ∧ State.reset.sp = 0xFF ∧ State.reset.pc = 0x0200 := by
  decide
/-- Writing the value an unlisted address reads as removes the entry. -/
theorem test_memory_canonical : Memory.set [(5, 7)] 5 0 = [] ∧ Memory.set [(5, 7)] 3 1 = [(3, 1), (5, 7)] ∧
    Memory.wf [(3, 1), (5, 0)] = false ∧ Memory.wf [(5, 1), (3, 1)] = false := by decide
/-- Load while Running is refused by name (93_implementation_defined.md U13). -/
theorem test_load_running : loadCommand 0x0200 [0xEA] (start 0x0200 []) = .refused .loadWhileRunning := rfl
/-- Run in Halted is rejected with one log line (R278). -/
theorem test_run_halted : (runCommand (halt .stackOverflow (start 0x0200 []))).runningState = false := by decide
/-- Stop in Halted stays Halted (D21). -/
theorem test_stop_halted : (stopCommand (halt .stackOverflow (start 0x0200 []))).errorState = true := by decide
/-- A placed word runs as the first instruction after reset. -/
theorem test_placed_word : ∃ t, step (State.reset.withFetchWord 16 0x80A9) = .next t ∧ t.a = 0x80 ∧ t.pc = 0x0202 :=
  ⟨_, rfl, rfl, rfl⟩

/-! ## Witnesses: for each obligation with hypotheses, inputs that meet them -/

/-- A legal Running state with an instruction at PC. -/
abbrev running (bytes : List Byte) : State := start 0x0200 bytes

/-- A Halted state. -/
abbrev halted : State := halt .stackOverflow (start 0x0200 [])

theorem legal_running : Legal (running [0xEA]) := ⟨by decide, by decide, by decide, by simp [start, State.reset]⟩

/-- DecodeOfEncodeIsIdentity, at a populated and at an unpopulated slot. -/
theorem witness_decode_encode : (Instr.ldaImmediate 0xFF).wellFormed = true ∧ (Instr.jsr 0xFFFF).wellFormed = true ∧
    (Instr.invalid 0x80).wellFormed = true := by decide
/-- EncodeOfDecodeIsIdentity. -/
theorem witness_encode_decode : decode [0x8D, 0x34, 0x12, 0x99] = .ok (.staAbsolute 0x1234, [0x99]) := rfl
/-- EveryOpcodeHasOneEntry, both sides of each equivalence. -/
theorem witness_populated : Config.populated 0x80 = false ∧ Config.populated 0xA9 = true := by decide
/-- MemReadAnswersCellOrFreshDraw and ReadAfterWrite: the tap, and an address with the same low byte. -/
theorem witness_tap : (0x0077 : Word).toNat = (running []).rngAddr.toNat ∧
    (0x0177 : Word).toNat ≠ (running []).rngAddr.toNat := by decide
/-- MemWriteStoresOneByte, ReadAfterWrite, StoresComplete, IncDecMemoryComplete, ShiftMemoryComplete:
a canonical memory that is not empty. -/
theorem witness_wf : Memory.wf (running [0xEA, 0x01]).mem = true ∧ (running [0xEA, 0x01]).mem ≠ [] := by decide
/-- ReadAfterWrite: the first address of the window and the last one below it. -/
theorem witness_window : 0xFC00 ≤ (0xFC00 : Word).toNat ∧ (0xFBFF : Word).toNat < 0xFC00 := by decide
/-- IndexedAndPointerAddresses, where the sum wraps. -/
theorem witness_pointer : (0x0001 : Word).toNat = ((0xFF : Byte).toNat + { running [] with x := 2 }.x.toNat) % 256 ∧
    (0x00FF : Word).toNat = (0xFF : Byte).toNat := by decide
/-- PcProtocol. -/
theorem witness_pc_protocol : ∃ t, (running [0xEA]).executing = true ∧ step (running [0xEA]) = .next t ∧
    (fetch (running [0xEA])).1.mnemonic ∉
      ["JMP", "JSR", "RTS", "RTI", "BRK", "BCC", "BCS", "BEQ", "BNE", "BMI", "BPL", "BVC", "BVS"] :=
  ⟨_, by decide, rfl, by decide⟩
/-- StepRunsTheDecodedInstruction. -/
theorem witness_step_runs :
    let s := running [0x8D, 0x34, 0x12]
    s.executing = true ∧
    (∀ k, k < (Instr.staAbsolute 0x1234).size → (s.pc + BitVec.ofNat 16 k).toNat ≠ s.rngAddr.toNat) ∧
    decode [Memory.get s.mem s.pc.toNat, Memory.get s.mem (s.pc + 1).toNat, Memory.get s.mem (s.pc + 2).toNat] =
      .ok (.staAbsolute 0x1234, []) := ⟨by decide, by decide, rfl⟩
/-- PlacedInstructionIsRun. -/
theorem witness_placed : decodeTableWord 24 0x12348D = some (.staAbsolute 0x1234) := by decide
/-- StoppedAndHaltedAreFixed, each disjunct. -/
theorem witness_fixed : State.reset.runningState = false ∧ halted.errorState = true := by decide
/-- StepSucceedsOrHalts, a step that succeeds and one that halts. -/
theorem witness_executing : (running [0xEA]).executing = true ∧ (running [0x02]).executing = true := by decide
/-- HaltTakesTheFault: a command of each kind the two clauses speak of. -/
theorem witness_halt : ∃ t u, Command.run ≠ Command.reset ∧ perform .run (halt .stackUnderflow State.reset) = .next t ∧
    perform .reset (halt .stackUnderflow State.reset) = .next u := ⟨_, _, by decide, rfl, rfl⟩
/-- InvalidOpcodeHalts. -/
theorem witness_invalid : (running [0x02]).executing = true ∧
    Config.populated (memRead (running [0x02]).pc (running [0x02])).1 = false := by decide
/-- EveryStepKeepsTheInvariant and TracesOnlyGrow. -/
theorem witness_invariant : ∃ t, Legal (running [0xEA]) ∧ step (running [0xEA]) = .next t := ⟨_, legal_running, rfl⟩
/-- EveryCommandKeepsTheInvariant. -/
theorem witness_command : ∃ t, Legal (running [0xEA]) ∧ perform .stop (running [0xEA]) = .next t :=
  ⟨_, legal_running, rfl⟩
/-- StatusBitWriters: each clause with its bit changed. -/
theorem witness_status_bits :
    (∃ t, exec .sec (running []) = .next t ∧ t.p.getLsbD 0 ≠ (running []).p.getLsbD 0) ∧
    (∃ t, exec (.ldaImmediate 0) (running []) = .next t ∧ t.p.getLsbD 1 ≠ (running []).p.getLsbD 1) ∧
    (∃ t, exec .sei (running []) = .next t ∧ t.p.getLsbD 2 ≠ (running []).p.getLsbD 2) ∧
    (∃ t, exec .sed (running []) = .next t ∧ t.p.getLsbD 3 ≠ (running []).p.getLsbD 3) ∧
    (∃ t, exec .plp (poke 0x01FE 0x70 { running [] with sp := 0xFE }) = .next t ∧
      t.p.getLsbD 4 ≠ (running []).p.getLsbD 4 ∧ t.p.getLsbD 6 ≠ (running []).p.getLsbD 6) :=
  ⟨⟨_, rfl, by decide⟩, ⟨_, rfl, by decide⟩, ⟨_, rfl, by decide⟩, ⟨_, rfl, by decide⟩, ⟨_, rfl, by decide, by decide⟩⟩
/-- RegisterWriters: each register changed, A by both kinds of instruction. -/
theorem witness_registers :
    (∃ t, exec (.ldaImmediate 1) (running []) = .next t ∧ t.a ≠ (running []).a) ∧
    (∃ t, exec .aslAccumulator { running [] with a := 1 } = .next t ∧ t.a ≠ 1) ∧
    (∃ t, exec .inx (running []) = .next t ∧ t.x ≠ (running []).x) ∧
    (∃ t, exec .dey (running []) = .next t ∧ t.y ≠ (running []).y) ∧
    (∃ t, exec .pha (running []) = .next t ∧ t.sp ≠ (running []).sp) :=
  ⟨⟨_, rfl, by decide⟩, ⟨_, rfl, by decide⟩, ⟨_, rfl, by decide⟩, ⟨_, rfl, by decide⟩, ⟨_, rfl, by decide⟩⟩
/-- MemoryWriters: a store that changes memory and calls the sink, a push, a shift in memory. -/
theorem witness_memory :
    (∃ t, exec (.staAbsolute 0xFC00) { running [] with a := 7 } = .next t ∧
      Memory.get t.mem 0xFC00 ≠ Memory.get (running []).mem 0xFC00 ∧ t.sink ≠ (running []).sink) ∧
    (∃ t, exec .pha { running [] with a := 7 } = .next t ∧
      Memory.get t.mem 0x01FE ≠ Memory.get (running []).mem 0x01FE) ∧
    (∃ t, exec (.aslAbsolute 0xFC00) (poke 0xFC00 1 (running [])) = .next t ∧ t.sink ≠ (running []).sink) :=
  ⟨⟨_, rfl, by decide, by decide⟩, ⟨_, rfl, by decide⟩, ⟨_, rfl, by decide⟩⟩
/-- BranchTargetIsSignedDisplacement, where the clauses meet. -/
theorem witness_offset : 0x7F < (0x80 : Byte).toNat ∧ (0x7F : Byte).toNat ≤ 0x7F := by decide
/-- AdcResult and SbcResult: binary mode, decimal mode, and decimal mode with valid BCD operands at the top;
0x0A is the first byte that is not valid BCD. -/
theorem witness_bcd : (running []).p.getLsbD 3 = false ∧ { running [] with p := 0x08 }.p.getLsbD 3 = true ∧
    ValidBcd 0x99 ∧ ValidBcd 0x00 ∧ ¬ValidBcd 0x0A :=
  ⟨by decide, by decide, ⟨by decide, by decide⟩, ⟨by decide, by decide⟩, fun h => absurd h.2 (by decide)⟩
/-- SbcIsAdcOfComplement. -/
theorem witness_complement : ∃ t, (running []).p.getLsbD 3 = false ∧
    exec (.sbcImmediate 0x10) (running []) = .next t := ⟨_, by decide, rfl⟩
/-- The statements over the forms of a family: each list is inhabited, for every operand. -/
theorem witness_forms (b : Byte) (w : Word) :
    (0xA9, .ldaImmediate b, .immediate b) ∈ ldaForms b w ∧ (0xA2, .ldxImmediate b, .immediate b) ∈ ldxForms b w ∧
    (0xA0, .ldyImmediate b, .immediate b) ∈ ldyForms b w ∧ (0x69, .adcImmediate b, .immediate b) ∈ adcForms b w ∧
    (0xE9, .sbcImmediate b, .immediate b) ∈ sbcForms b w ∧ (0x29, .andImmediate b, .immediate b) ∈ andForms b w ∧
    (0x09, .oraImmediate b, .immediate b) ∈ oraForms b w ∧ (0x49, .eorImmediate b, .immediate b) ∈ eorForms b w ∧
    (0x24, .bitZeroPage b, .memory (.zeroPage b)) ∈ bitForms b w ∧
    (0xC9, .cmpImmediate b, .immediate b) ∈ cmpForms b w ∧ (0xE0, .cpxImmediate b, .immediate b) ∈ cpxForms b w ∧
    (0xC0, .cpyImmediate b, .immediate b) ∈ cpyForms b w ∧ (0x85, .staZeroPage b, .zeroPage b) ∈ staForms b w ∧
    (0x86, .stxZeroPage b, .zeroPage b) ∈ stxForms b w ∧ (0x84, .styZeroPage b, .zeroPage b) ∈ styForms b w ∧
    (0xE6, .incZeroPage b, .zeroPage b) ∈ incForms b w ∧ (0xC6, .decZeroPage b, .zeroPage b) ∈ decForms b w ∧
    (0x06, .aslZeroPage b, .zeroPage b) ∈ aslForms b w ∧ (0x46, .lsrZeroPage b, .zeroPage b) ∈ lsrForms b w ∧
    (0x26, .rolZeroPage b, .zeroPage b) ∈ rolForms b w ∧ (0x66, .rorZeroPage b, .zeroPage b) ∈ rorForms b w := by
  simp [ldaForms, ldxForms, ldyForms, adcForms, sbcForms, andForms, oraForms, eorForms, bitForms, cmpForms, cpxForms,
    cpyForms, staForms, stxForms, styForms, incForms, decForms, aslForms, lsrForms, rolForms, rorForms]
/-- BranchesComplete: the flag tested with and without its value. -/
theorem witness_branch : (running []).p.getLsbD 0 = false ∧ { running [] with p := 0x01 }.p.getLsbD 0 ≠ false := by
  decide
/-- JsrCompletes at the lowest SP with room, RtsCompletes at the highest SP with two bytes on the stack. -/
theorem witness_jsr_rts : Memory.wf { running [] with sp := 2 }.mem = true ∧
    2 ≤ { running [] with sp := 2 }.sp.toNat ∧ { running [] with sp := 0xFD }.sp.toNat ≤ 0xFD := by decide
/-- ReturnsUndoCalls, first clause, at SP = 2: `v` is the state JSR left but for another P and another cell
outside the pushed ones. -/
theorem witness_jsr_then_rts :
    let s := { running [] with sp := 2 }
    ∃ t u, Memory.wf s.mem = true ∧ (poke 0x0300 1 { t with p := 0xFF }).sp = t.sp ∧
      (∀ a, 0x100 + t.sp.toNat ≤ a → a < 0x100 + s.sp.toNat →
        Memory.get (poke 0x0300 1 { t with p := 0xFF }).mem a = Memory.get t.mem a) ∧
      2 ≤ s.sp.toNat ∧ exec (.jsr 0x3000) s = .next t ∧ exec .rts (poke 0x0300 1 { t with p := 0xFF }) = .next u := by
  refine ⟨_, _, by decide, rfl, fun a _ h => Memory.get_set_ne ?_ _ _, by decide, rfl, rfl⟩
  have h' : a < 0x102 := h
  omega
/-- ReturnsUndoCalls, second clause, at SP = 3, with another cell changed in between. -/
theorem witness_brk_then_rti :
    let s := { running [] with sp := 3 }
    ∃ t u, Memory.wf s.mem = true ∧ (poke 0x0300 1 t).sp = t.sp ∧
      (∀ a, 0x100 + t.sp.toNat ≤ a → a < 0x100 + s.sp.toNat →
        Memory.get (poke 0x0300 1 t).mem a = Memory.get t.mem a) ∧
      3 ≤ s.sp.toNat ∧ exec .brk s = .next t ∧ exec .rti (poke 0x0300 1 t) = .next u := by
  refine ⟨_, _, by decide, rfl, fun a _ h => Memory.get_set_ne ?_ _ _, by decide, rfl, rfl⟩
  have h' : a < 0x103 := h
  omega
/-- PushStoresBelowSp: SP = 0, and the smallest SP that is not. -/
theorem witness_push : { running [] with sp := 0 }.sp.toNat = 0 ∧ { running [] with sp := 1 }.sp.toNat ≠ 0 := by decide
/-- PopAndLastInFirstOut: SP at the top, one below it, and a list of bytes that just fits. -/
theorem witness_pop : Config.stackTop.toNat ≤ { running [] with sp := 0xFF }.sp.toNat ∧
    { running [] with sp := 0xFE }.sp.toNat < Config.stackTop.toNat ∧ Memory.wf (running []).mem = true ∧
    [(1 : Byte), 2].length ≤ { running [] with sp := 2 }.sp.toNat := by decide
/-- PushInstructionsComplete at SP = 1, PullInstructionsComplete at SP = 0xFE. -/
theorem witness_push_pull : Memory.wf { running [] with sp := 1 }.mem = true ∧
    { running [] with sp := 1 }.sp.toNat ≠ 0 ∧ { running [] with sp := 0xFE }.sp.toNat ≠ 0xFF := by decide
/-- BrkCompletes at SP = 3, RtiCompletes at SP = 0xFC. -/
theorem witness_brk_rti : Memory.wf { running [] with sp := 3 }.mem = true ∧
    3 ≤ { running [] with sp := 3 }.sp.toNat ∧ { running [] with sp := 0xFC }.sp.toNat ≤ 0xFC := by decide
/-- StackFaultsKeepEarlierEffects, each clause at each end of its range. -/
theorem witness_stack_faults : Memory.wf (running []).mem = true ∧ { running [] with sp := 0 }.sp.toNat = 0 ∧
    { running [] with sp := 1 }.sp.toNat = 1 ∧ { running [] with sp := 2 }.sp.toNat = 2 ∧
    (running []).sp.toNat = 0xFF ∧ 0xFE ≤ { running [] with sp := 0xFE }.sp.toNat ∧
    0xFD ≤ { running [] with sp := 0xFD }.sp.toNat := by decide
/-- RunCommandStartsOnlyAStoppedCore, each clause. -/
theorem witness_run : (State.reset.runningState = false ∧ State.reset.errorState = false) ∧
    (running []).runningState = true ∧ (halted.runningState = false ∧ halted.errorState = true) := by decide
/-- OnlyResetLeavesHalted, for Run and for Load. -/
theorem witness_only_reset : ∃ t u, halted.runningState = false ∧ halted.errorState = true ∧ Command.run ≠ .reset ∧
    perform .run halted = .next t ∧ Command.load 0x0200 [0xEA] ≠ .reset ∧
    perform (.load 0x0200 [0xEA]) halted = .next u := ⟨_, _, by decide, by decide, by decide, rfl, by decide, rfl⟩
/-- OnlyResetLeavesHalted, last clause: a command that is no Load. -/
theorem witness_only_reset_no_load : ∃ t, halted.runningState = false ∧ halted.errorState = true ∧
    Command.stop ≠ .reset ∧ (∀ start bytes, Command.stop ≠ .load start bytes) ∧
    perform .stop halted = .next t := ⟨_, by decide, by decide, by decide, fun _ _ h => Command.noConfusion h, rfl⟩
/-- HostCommandsHaveTheirEffect: Stop outside and in Halted, Load while Running and while not. -/
theorem witness_commands : (running []).errorState = false ∧ halted.errorState = true ∧
    (running []).runningState = true ∧ halted.runningState = false ∧ Memory.wf halted.mem = true := by decide
/-- HostCommandsHaveTheirEffect, the bytes of a Load: two bytes from 0xFFFF on come round to 0x0000, and
0x0001 is outside them. -/
theorem witness_load : [(1 : Byte), 2][1]? = some 2 ∧ [(1 : Byte), 2].length ≤ 1 + 65536 ∧
    ((0xFFFF : Word).toNat + 1) % 65536 = 0 ∧
    (∀ i, i < [(1 : Byte), 2].length → 1 ≠ ((0xFFFF : Word).toNat + i) % 65536) := by decide

end Sys2Proof.Tests
end

section
/-! PROOFS. 40_execution_and_addressing.md: the byte and word fetches (R104, R105) and SetNZ (R121). -/

namespace Sys2Proof.Proofs

open Sys2Proof Sys2Proof.Machine Sys2Proof.Safety

/-! ## The program counter of a fetch -/

@[simp] theorem fetchByte_pc (s : State) : (fetchByte s).2.pc = s.pc + 1 := rfl

@[simp] theorem fetchWord_pc (s : State) : (fetchWord s).2.pc = s.pc + 2 := by
  calc (fetchWord s).2.pc
      = (fetchByte s).2.pc + 1 := fetchByte_pc (fetchByte s).2
    _ = s.pc + 1 + 1 := by rw [fetchByte_pc]
    _ = s.pc + 2 := BitVec.add_assoc s.pc 1 1

/-- Settles O11: both fetches by their two steps, the word's value by `operandWord_toNat` and the counter by
`fetchByte_pc` and `fetchWord_pc`. -/
theorem fetchAdvancesPc : Obligations.FetchAdvancesPc := by
  intro s
  refine ⟨rfl, rfl, ?_, ?_, rfl, ?_⟩
  · exact (congrArg BitVec.toNat (fetchByte_pc s)).trans (BitVec.toNat_add s.pc 1)
  · exact operandWord_toNat _ _
  · exact (congrArg BitVec.toNat (fetchWord_pc s)).trans (BitVec.toNat_add s.pc 2)

/-! ## The two flags of SetNZ -/

/-- SetNZ leaves N as bit 7 of the value and Z as whether the value is 0 (R121). -/
theorem nzBits_NZOf (v p : Byte) : NZOf v (nzBits v p) := by
  constructor
  · simp only [getLsbD_nzBits, OfNat.ofNat_ne_one, if_false, if_true]
  · rw [getLsbD_nzBits, if_pos rfl, Bool.eq_iff_iff, beq_iff_eq, decide_eq_true_iff, ← BitVec.toNat_inj]
    rfl

/-- SetNZ leaves every bit of P but Z and N (R121). -/
theorem nzBits_sameBitsBut (v p : Byte) : SameBitsBut [1, 7] p (nzBits v p) := by
  intro k hk
  have h1 : k ≠ 1 := fun e => hk (by simp [e])
  have h7 : k ≠ 7 := fun e => hk (by simp [e])
  rw [getLsbD_nzBits, if_neg h1, if_neg h7]

/-- Settles O26: `nzBits` is the whole of P after SetNZ, and P is the one field it writes. -/
theorem setNZWritesTwoFlags : Obligations.SetNZWritesTwoFlags := fun v s =>
  ⟨nzBits_NZOf v s.p, nzBits_sameBitsBut v s.p, rfl⟩

end Sys2Proof.Proofs
end

section
/-! PROOFS. 60_exceptions.md: the invalid entry (R241), Halt (R244) and the commands of the host in Halted
(R245, R248). -/

namespace Sys2Proof.Proofs

open Sys2Proof Sys2Proof.Machine Sys2Proof.Safety

/-! ## Execute-one by the run state -/

/-- In Running, execute-one performs the fetched instruction (R100). -/
theorem step_of_executing {s : State} (h : s.executing = true) : step s = exec (fetch s).1 (fetch s).2 :=
  if_pos h

/-- Outside Running, execute-one has no effect (R100, decision D20). -/
theorem step_of_not_executing {s : State} (h : s.executing = false) : step s = .next s :=
  if_neg (Bool.eq_false_iff.mp h)

/-- A core with an error recorded does not execute, whatever runningState says (R100, log entry 10). -/
theorem executing_of_errorState {s : State} (h : s.errorState = true) : s.executing = false := by
  simp [State.executing, h]

/-! ## The invalid entry -/

/-- An unpopulated opcode is fetched with no operand bytes (R78, R241). -/
theorem fetch_of_unpopulated {s : State} (h : Config.populated (memRead s.pc s).1 = false) :
    fetch s = (.invalid (memRead s.pc s).1, { (memRead s.pc s).2 with pc := s.pc + 1 }) :=
  congrArg (fetchOperands · (fetchByte s).2) (catalogue_invalid h)

/-- The meaning of the invalid entry is Halt with InvalidOpcode (R241). -/
theorem exec_invalid (op : Byte) (s : State) : exec (.invalid op) s = .next (halt (.invalidOpcode op) s) :=
  finish_raise (.invalidOpcode op) s

/-- Settles O18: an unpopulated opcode is fetched as the invalid entry, which halts. -/
theorem invalidOpcodeHalts : Obligations.InvalidOpcodeHalts := by
  refine ⟨exec_invalid, fun s hs hop => ?_⟩
  rw [step_of_executing hs, fetch_of_unpopulated hop, exec_invalid]

/-! ## The commands of the host in Halted -/

/-- Steps that do not execute leave the state, however many (R102, D20). -/
theorem runSteps_of_not_executing {s : State} (h : s.executing = false) (n : Nat) : runSteps n s = .next s := by
  induction n with
  | zero => rfl
  | succ n ih => simp only [runSteps, step_of_not_executing h, ih]

/-- What a command other than Reset does in Halted: nothing, one rejection line (Run, R278), or a load
(R280, D22). -/
theorem perform_halted_cases {c : Command} {s t : State} (hr : s.runningState = false)
    (he : s.errorState = true) (hc : c ≠ .reset) (h : perform c s = .next t) :
    t = s ∨ t = { s with log := s.log ++ [.runRejected] } ∨
    ∃ start bytes, c = .load start bytes ∧ t = { s with mem := loadBytes start bytes s.mem, pc := start } := by
  cases c with
  | reset => exact absurd rfl hc
  | run =>
    have hrun : runCommand s = { s with log := s.log ++ [.runRejected] } := by simp [runCommand, hr, he]
    exact .inr (.inl (hrun ▸ (Host.Outcome.next.inj h).symm))
  | stop =>
    have hstop : stopCommand s = s := if_pos he
    exact .inl (hstop ▸ (Host.Outcome.next.inj h).symm)
  | load start bytes =>
    have hload : loadCommand start bytes s = .next { s with mem := loadBytes start bytes s.mem, pc := start } := by
      simp [loadCommand, hr]
    exact .inr (.inr ⟨start, bytes, rfl, (Host.Outcome.next.inj (hload.symm.trans h)).symm⟩)
  | loadFailed => exact .inl (Host.Outcome.next.inj h).symm
  | tick =>
    have htick : executeBatch s = .next s := runSteps_of_not_executing (executing_of_errorState he) Config.batchSize
    exact .inl (Host.Outcome.next.inj (htick.symm.trans h)).symm

/-- No command but Reset leaves Halted (R245, R248). -/
theorem perform_keeps_halted {c : Command} {s t : State} (hr : s.runningState = false)
    (he : s.errorState = true) (hc : c ≠ .reset) (h : perform c s = .next t) :
    t.errorState = true ∧ t.runningState = false := by
  obtain rfl | rfl | ⟨_, _, -, rfl⟩ := perform_halted_cases hr he hc h <;> exact ⟨he, hr⟩

/-- Reset ends in Stopped, from every state (R270). -/
theorem errorState_of_perform_reset {s t : State} (h : perform .reset s = .next t) : t.errorState = false := by
  obtain rfl := Host.Outcome.next.inj h
  rfl

/-- Settles O17: the fields by `halt`'s own equations, the commands by `perform_keeps_halted` and
`errorState_of_perform_reset` at a halted state. -/
theorem haltTakesTheFault : Obligations.HaltTakesTheFault := fun f s =>
  ⟨halt_runningState f s, halt_errorState f s, halt_lastFault f s, halt_log f s, rfl,
    fun _ _ hc h => perform_keeps_halted (halt_runningState f s) (halt_errorState f s) hc h,
    fun _ h => errorState_of_perform_reset h⟩

end Sys2Proof.Proofs
end

section
/-! PROOFS. 30_encoding.md: the encoder and the decoder undo each other (R70 to R76, R80), and the 256 slots
(R75, R78). -/

namespace Sys2Proof.Proofs

open Sys2Proof Sys2Proof.Machine Sys2Proof.Safety

/-! ## Decoding what was encoded -/

/-- The instruction `i` is what the catalogue makes of its own encoding, in one of the three formats of R70. -/
inductive InSlot (i : Instr) : Prop where
  | single {op : Byte} (he : encode i = [op]) (hc : catalogue op = .single i)
  | byteOperand {op b : Byte} {f : Byte → Instr} (he : encode i = [op, b]) (hc : catalogue op = .byteOperand f)
      (hf : f b = i)
  | wordOperand {op : Byte} {w : Word} {f : Word → Instr} (he : encode i = op :: operandBytes w)
      (hc : catalogue op = .wordOperand f) (hf : f w = i)

/-- The mnemonic table R76 and the matrix R77 agree on every well-formed instruction. -/
theorem inSlot_of_wellFormed {i : Instr} (h : i.wellFormed = true) : InSlot i := by
  cases i with
  | ldaImmediate | ldaZeroPage | ldaZeroPageX | ldaIndexedIndirectX | ldaIndirectIndexedY | ldxImmediate
    | ldxZeroPage | ldxZeroPageY | ldyImmediate | ldyZeroPage | ldyZeroPageX | staZeroPage | staZeroPageX
    | staIndexedIndirectX | staIndirectIndexedY | stxZeroPage | stxZeroPageY | styZeroPage | styZeroPageX
    | adcImmediate | adcZeroPage | adcZeroPageX | adcIndexedIndirectX | adcIndirectIndexedY
    | sbcImmediate | sbcZeroPage | sbcZeroPageX | sbcIndexedIndirectX | sbcIndirectIndexedY
    | andImmediate | andZeroPage | andZeroPageX | andIndexedIndirectX | andIndirectIndexedY
    | oraImmediate | oraZeroPage | oraZeroPageX | oraIndexedIndirectX | oraIndirectIndexedY
    | eorImmediate | eorZeroPage | eorZeroPageX | eorIndexedIndirectX | eorIndirectIndexedY | bitZeroPage
    | cmpImmediate | cmpZeroPage | cmpZeroPageX | cmpIndexedIndirectX | cmpIndirectIndexedY
    | cpxImmediate | cpxZeroPage | cpyImmediate | cpyZeroPage | incZeroPage | incZeroPageX | decZeroPage
    | decZeroPageX | aslZeroPage | aslZeroPageX | lsrZeroPage | lsrZeroPageX | rolZeroPage | rolZeroPageX
    | rorZeroPage | rorZeroPageX | bcc | bcs | beq | bne | bmi | bpl | bvc | bvs => exact .byteOperand rfl rfl rfl
  | ldaAbsolute | ldaAbsoluteX | ldaAbsoluteY | ldxAbsolute | ldxAbsoluteY | ldyAbsolute | ldyAbsoluteX
    | staAbsolute | staAbsoluteX | staAbsoluteY | stxAbsolute | styAbsolute | adcAbsolute | adcAbsoluteX
    | adcAbsoluteY | sbcAbsolute | sbcAbsoluteX | sbcAbsoluteY | andAbsolute | andAbsoluteX | andAbsoluteY
    | oraAbsolute | oraAbsoluteX | oraAbsoluteY | eorAbsolute | eorAbsoluteX | eorAbsoluteY | bitAbsolute
    | cmpAbsolute | cmpAbsoluteX | cmpAbsoluteY | cpxAbsolute | cpyAbsolute | incAbsolute | incAbsoluteX
    | decAbsolute | decAbsoluteX | aslAbsolute | aslAbsoluteX | lsrAbsolute | lsrAbsoluteX | rolAbsolute
    | rolAbsoluteX | rorAbsolute | rorAbsoluteX | jmpAbsolute | jmpIndirect | jsr => exact .wordOperand rfl rfl rfl
  | tax | tay | txa | tya | tsx | txs | inx | iny | dex | dey | aslAccumulator | lsrAccumulator
    | rolAccumulator | rorAccumulator | rts | pha | pla | php | plp | clc | sec | cld | sed | cli | sei | clv | nop
    | brk | rti => exact .single rfl rfl
  | invalid op =>
    have hp : Config.populated op = false := Bool.not_eq_true' _ ▸ h
    exact .single rfl (catalogue_invalid hp)

/-- Settles O1: by the three formats of R70, a word operand by `operandWord_bytes` (R73). -/
theorem decodeOfEncodeIsIdentity : Obligations.DecodeOfEncodeIsIdentity := by
  intro i rest h
  cases inSlot_of_wellFormed h with
  | single he hc => simp only [he, List.cons_append, List.nil_append, decode, hc]
  | byteOperand he hc hf => simp only [he, List.cons_append, List.nil_append, decode, hc, hf]
  | wordOperand he hc hf =>
    simp only [he, operandBytes, List.cons_append, List.nil_append, decode, hc, operandWord_bytes, hf]

/-! ## Encoding what was decoded -/

/-- What the decoder answers stands in the slot of the first byte, and its bytes are those before the rest. -/
theorem ofSlot_of_decode {op : Byte} {bs rest : List Byte} {i : Instr} (h : decode (op :: bs) = .ok (i, rest)) :
    ∃ operands, i.OfSlot op (op :: operands) (operands.length + 1) ∧ operands ++ rest = bs := by
  have hslot := catalogue_ofSlot op
  simp only [decode] at h
  cases hc : catalogue op with
  | single j =>
    simp only [hc, Except.ok.injEq, Prod.mk.injEq] at h hslot
    obtain ⟨rfl, rfl⟩ := h
    exact ⟨[], hslot, rfl⟩
  | byteOperand f =>
    rw [hc] at h hslot
    match bs, h with
    | b :: r, h =>
      simp only [Except.ok.injEq, Prod.mk.injEq] at h
      obtain ⟨rfl, rfl⟩ := h
      exact ⟨[b], hslot b, rfl⟩
  | wordOperand f =>
    rw [hc] at h hslot
    match bs, h with
    | lo :: hi :: r, h =>
      simp only [Except.ok.injEq, Prod.mk.injEq] at h
      obtain ⟨rfl, rfl⟩ := h
      exact ⟨[lo, hi], operandBytes_operandWord lo hi ▸ hslot (operandWord lo hi), rfl⟩

/-- Settles O2: the three facts are those of the slot (`ofSlot_of_decode`). -/
theorem encodeOfDecodeIsIdentity : Obligations.EncodeOfDecodeIsIdentity := by
  intro bs rest i h
  cases bs with
  | nil => simp [decode] at h
  | cons op bs =>
    obtain ⟨operands, ⟨henc, hwf, hsize, -, -⟩, hbs⟩ := ofSlot_of_decode h
    exact ⟨hwf, by rw [henc, List.cons_append, hbs], by rw [henc, hsize, List.length_cons]⟩

/-! ## The 256 slots -/

/-- Three bytes always hold a whole instruction (R72, R74). -/
theorem decode_three_isOk (op b1 b2 : Byte) : ∃ i rest, decode [op, b1, b2] = .ok (i, rest) := by
  simp only [decode]
  cases catalogue op with
  | single i => exact ⟨i, _, rfl⟩
  | byteOperand f => exact ⟨f b1, _, rfl⟩
  | wordOperand f => exact ⟨f (operandWord b1 b2), _, rfl⟩

/-- The number of populated slots, by evaluation over the 256 opcode bytes (R79, decision D7). -/
theorem populated_count : ((List.range 256).filter (fun n => Config.populated (BitVec.ofNat 8 n))).length = 151 := by
  rfl

/-- Settles O3: each slot's entry is `ofSlot_of_decode`'s, whose first byte is the slot's; the count is
`populated_count`. -/
theorem everyOpcodeHasOneEntry : Obligations.EveryOpcodeHasOneEntry := by
  refine ⟨fun op b1 b2 => ?_, populated_count⟩
  obtain ⟨i, rest, h⟩ := decode_three_isOk op b1 b2
  obtain ⟨operands, ⟨henc, -, -, hinvalid, hmnemonic⟩, -⟩ := ofSlot_of_decode h
  exact ⟨i, rest, h, by rw [opcodeOf, henc, List.head?_cons], hinvalid, hmnemonic⟩

/-- Settles O4: seven words, by evaluation of the decoder. -/
theorem sampleWordsDecode : Obligations.SampleWordsDecode := ⟨rfl, rfl, rfl, rfl, rfl, rfl, rfl⟩

end Sys2Proof.Proofs
end

section
/-! PROOFS. 20_memory.md: the ports (R42 to R47, R55); 40_execution_and_addressing.md: the effective addresses
and the operands (R106 to R115, R127). -/

namespace Sys2Proof.Proofs

open Sys2Proof Sys2Proof.Machine Sys2Proof.Safety

/-! ## The ports -/

/-- Settles O5: the two cases of MemRead, by `isTap_iff`. -/
theorem memReadAnswersCellOrFreshDraw : Obligations.MemReadAnswersCellOrFreshDraw := fun addr s =>
  ⟨fun h => memRead_tap ((isTap_iff addr s).mpr h), fun h => memRead_stored ((isTap_eq_false_iff addr s).mpr h)⟩

/-- One MemWrite extends the sink trace as R45 says. -/
theorem memWrite_sinkAfter (addr : Word) (v : Byte) (s : State) : (memWrite addr v s).sink = sinkAfter addr v s := by
  simp only [memWrite_sink, inDisplay_iff, decide_eq_true_eq, sinkAfter]

/-- Settles O6: the cells by `Memory.get_set`, the canonical form by `memWrite_wf`. -/
theorem memWriteStoresOneByte : Obligations.MemWriteStoresOneByte := fun addr v s hm =>
  ⟨Memory.get_set hm v, memWrite_sinkAfter addr v s, rfl, memWrite_wf hm addr v⟩

/-- Settles O7: the cell by `Memory.get_set_same`, the sink by `memWrite_sinkAfter`. -/
theorem readAfterWrite : Obligations.ReadAfterWrite := by
  intro addr v s hm
  have hcell : Memory.get (memWrite addr v s).mem addr.toNat = v := Memory.get_set_same hm v
  refine ⟨fun h => ?_, fun h => ⟨?_, hcell⟩, fun h => ?_, fun h => ?_⟩
  · rw [memRead_stored ((isTap_eq_false_iff addr (memWrite addr v s)).mpr h), hcell]
  · rw [memRead_tap ((isTap_iff addr (memWrite addr v s)).mpr h), memWrite_draws]
  · rw [memWrite_sinkAfter, sinkAfter, if_pos h]
  · rw [memWrite_sinkAfter, sinkAfter, if_neg (Nat.not_le.mpr h)]

/-! ## The effective addresses -/

/-- Zero extension keeps the number (R4). -/
theorem zext16_toNat (b : Byte) : (zext16 b).toNat = b.toNat :=
  BitVec.toNat_setWidth_of_le (by decide)

/-- A word indexed by a byte, modulo 65536 (R111, R112, R115). -/
theorem add_zext16_toNat (w : Word) (b : Byte) : (w + zext16 b).toNat = (w.toNat + b.toNat) % 65536 := by
  rw [BitVec.toNat_add, zext16_toNat]

/-- A zero-page address indexed by a byte stays in the zero page (R108, R109, R114). -/
theorem zext16_add_toNat (b c : Byte) : (zext16 (b + c)).toNat = (b.toNat + c.toNat) % 256 := by
  rw [zext16_toNat, BitVec.toNat_add]

/-- Settles O8: the two indexed sums by `add_zext16_toNat`. -/
theorem directAddresses : Obligations.DirectAddresses := fun b w s =>
  ⟨zext16_toNat b, rfl, rfl, rfl, add_zext16_toNat w s.x, rfl, add_zext16_toNat w s.y, rfl⟩

/-- Settles O9: the index sums by `zext16_add_toNat` and `add_zext16_toNat`, the word by `wordOf_toNat`. -/
theorem indexedAndPointerAddresses : Obligations.IndexedAndPointerAddresses := by
  intro b w p s
  refine ⟨⟨wordOf_toNat _ _, rfl, BitVec.toNat_add w 1⟩, ⟨zext16_add_toNat b s.x, rfl⟩,
    ⟨zext16_add_toNat b s.y, rfl⟩, rfl, fun hp => ?_, fun hp => ?_⟩
  · obtain rfl : p = zext16 (b + s.x) := BitVec.eq_of_toNat_eq (hp.trans (zext16_add_toNat b s.x).symm)
    rfl
  · obtain rfl : p = zext16 b := BitVec.eq_of_toNat_eq (hp.trans (zext16_toNat b).symm)
    exact ⟨add_zext16_toNat _ s.y, rfl⟩

/-! ## Operands -/

/-- One read draws at most once (R42). -/
theorem memRead_draws_le (addr : Word) (s : State) : (memRead addr s).2.draws ≤ s.draws + 1 := by
  unfold memRead
  split
  · exact Nat.le_refl _
  · exact Nat.le_succ _

/-- A word read draws at most twice (R47). -/
theorem readWord_draws_le (addr : Word) (s : State) : (readWord addr s).2.draws ≤ s.draws + 2 :=
  Nat.le_trans (memRead_draws_le (addr + 1) _) (Nat.succ_le_succ (memRead_draws_le addr s))

/-- Only the pointer modes read memory, one word each (R107 to R115). -/
theorem resolve_draws_le (m : Address) (s : State) : (m.resolve s).2.draws ≤ s.draws + 2 := by
  cases m with
  | indirect | indexedIndirectX | indirectIndexedY => exact readWord_draws_le _ s
  | zeroPage | zeroPageX | zeroPageY | absolute | absoluteX | absoluteY => exact Nat.le_add_right _ _

/-- Settles O10: at most two draws for the address and one for the operand. -/
theorem readOperandReadsOnce : Obligations.ReadOperandReadsOnce := by
  intro b m s
  obtain ⟨hframe, hdraws⟩ := readOperand_onlyDraws (.memory m) s
  exact ⟨rfl, rfl, hframe, hdraws,
    Nat.le_trans (memRead_draws_le _ _) (Nat.succ_le_succ (resolve_draws_le m s))⟩

end Sys2Proof.Proofs
end

section
/-! PROOFS. 40_execution_and_addressing.md section 1: what one step does (R100, R101), and the invariant of the
machine along its steps (10_state.md, 60_exceptions.md). -/

namespace Sys2Proof.Proofs

open Sys2Proof Sys2Proof.Machine Sys2Proof.Safety

/-! ## The fetch of stored bytes -/

/-- An instruction has one to three bytes (R72). -/
theorem size_pos_le (i : Instr) : 0 < i.size ∧ i.size ≤ 3 := by
  unfold Instr.size
  cases i.mode with
  | none => decide
  | some m => cases m <;> decide

/-- When no fetched byte is the tap, the fetch answers what the bytes at PC decode to (R100, R31). -/
theorem fetch_of_decode {s : State} {i : Instr} {rest : List Byte}
    (htap : ∀ k, k < i.size → (s.pc + BitVec.ofNat 16 k).toNat ≠ s.rngAddr.toNat)
    (hd : decode [Memory.get s.mem s.pc.toNat, Memory.get s.mem (s.pc + 1).toNat,
      Memory.get s.mem (s.pc + 2).toNat] = .ok (i, rest)) :
    fetch s = (i, { s with pc := s.pc + BitVec.ofNat 16 i.size }) := by
  have hstored (k : Nat) (hk : k < i.size) (s' : State) (hr : s'.rngAddr = s.rngAddr) :
      s'.isTap (s.pc + BitVec.ofNat 16 k) = false := (isTap_eq_false_iff _ s').mpr (hr ▸ htap k hk)
  have h0 : s.isTap s.pc = false := by simpa using hstored 0 (size_pos_le i).1 s rfl
  have hslot := catalogue_ofSlot (Memory.get s.mem s.pc.toNat)
  simp only [decode] at hd
  simp only [fetch, fetchByte_stored h0]
  cases hc : catalogue (Memory.get s.mem s.pc.toNat) with
  | single j =>
    simp only [hc, Except.ok.injEq, Prod.mk.injEq] at hd hslot
    obtain ⟨rfl, -⟩ := hd
    obtain ⟨-, -, hsize, -⟩ := hslot
    rw [hsize]
    rfl
  | byteOperand f =>
    simp only [hc, Except.ok.injEq, Prod.mk.injEq] at hd hslot
    obtain ⟨rfl, -⟩ := hd
    obtain ⟨-, -, hsize, -⟩ := hslot (Memory.get s.mem (s.pc + 1).toNat)
    have h1 := hstored 1 (by omega) { s with pc := s.pc + 1 } rfl
    simp only [fetchOperands, fetchByte_stored h1, hsize, BitVec.add_assoc]
    rfl
  | wordOperand f =>
    simp only [hc, Except.ok.injEq, Prod.mk.injEq] at hd hslot
    obtain ⟨rfl, -⟩ := hd
    obtain ⟨-, -, hsize, -⟩ :=
      hslot (operandWord (Memory.get s.mem (s.pc + 1).toNat) (Memory.get s.mem (s.pc + 2).toNat))
    have h1 := hstored 1 (by omega) { s with pc := s.pc + 1 } rfl
    have h2 := hstored 2 (by omega) { s with pc := s.pc + 2 } rfl
    have hpc : s.pc + 1 + 1 = s.pc + 2 := BitVec.add_assoc s.pc 1 1
    simp only [fetchOperands, fetchWord, fetchByte_stored h1, hpc, fetchByte_stored h2, hsize]
    simp [BitVec.add_assoc]

/-- Settles O13: `step` is `exec` of the fetch, and the fetch of stored bytes is `fetch_of_decode`. -/
theorem stepRunsTheDecodedInstruction : Obligations.StepRunsTheDecodedInstruction := by
  intro s i rest hs
  refine ⟨step_of_executing hs, fun htap hd => ?_⟩
  rw [step_of_executing hs, fetch_of_decode htap hd]

/-- What `decodeTableWord` reads are the three bytes `placeWord` stores. -/
theorem decode_of_decodeTableWord {nbits w : Nat} {i : Instr} (h : decodeTableWord nbits w = some i) :
    ∃ rest, decode [BitVec.ofNat 8 (w % 2 ^ nbits), BitVec.ofNat 8 (w % 2 ^ nbits / 256),
      BitVec.ofNat 8 (w % 2 ^ nbits / 65536)] = .ok (i, rest) := by
  simp only [decodeTableWord] at h
  split at h
  · next j rest hd => exact ⟨rest, Option.some.inj h ▸ hd⟩
  · cases h

/-- The three cells `placeWord` writes. -/
theorem get_placeWord (addr : Word) (v : Nat) {m : List Host.Cell} (hm : Memory.wf m = true) :
    Memory.get (placeWord addr v m) addr.toNat = BitVec.ofNat 8 v ∧
    Memory.get (placeWord addr v m) (addr + 1).toNat = BitVec.ofNat 8 (v / 256) ∧
    Memory.get (placeWord addr v m) (addr + 2).toNat = BitVec.ofNat 8 (v / 65536) := by
  have hm0 := Memory.wf_set hm addr (BitVec.ofNat 8 v)
  have hm1 := Memory.wf_set hm0 (addr + 1) (BitVec.ofNat 8 (v / 256))
  have h01 : addr.toNat ≠ (addr + 1).toNat := by bv_omega
  have h02 : addr.toNat ≠ (addr + 2).toNat := by bv_omega
  have h12 : (addr + 1).toNat ≠ (addr + 2).toNat := by bv_omega
  simp only [placeWord, Memory.get_set hm1, Memory.get_set hm0, Memory.get_set hm, h01, h02, h12, if_true, if_false,
    and_self]

/-- No byte of an instruction at the reset PC is the tap, whatever RNG_ADDR is (R43, decision D3). -/
theorem reset_pc_ne_rngAddr {k : Nat} (hk : k < 3) (rng : Byte) :
    (Config.defaultStart + BitVec.ofNat 16 k).toNat ≠ rng.toNat := by
  have := rng.isLt
  have hstart : Config.defaultStart.toNat = 512 := rfl
  rw [BitVec.toNat_add, BitVec.toNat_ofNat, hstart]
  omega

/-- Settles O14: the bytes at the reset PC are those placed there (`get_placeWord`), and none is the tap. -/
theorem placedInstructionIsRun : Obligations.PlacedInstructionIsRun := by
  intro nbits w i h
  obtain ⟨rest, hd⟩ := decode_of_decodeTableWord h
  obtain ⟨h0, h1, h2⟩ := get_placeWord Config.defaultStart (w % 2 ^ nbits) State.reset_mem_wf
  rw [← h0, ← h1, ← h2] at hd
  have htap (k : Nat) (hk : k < i.size) := reset_pc_ne_rngAddr (Nat.lt_of_lt_of_le hk (size_pos_le i).2) Config.rngAddr
  have hfetch := fetch_of_decode (s := State.reset.withFetchWord nbits w) htap hd
  intro s
  rw [step_of_executing rfl, hfetch]
  rfl

/-- Settles O15: in each of the two a step does not execute. -/
theorem stoppedAndHaltedAreFixed : Obligations.StoppedAndHaltedAreFixed := by
  rintro s (hr | he)
  · exact step_of_not_executing (by rw [State.executing, hr, Bool.false_and])
  · exact step_of_not_executing (executing_of_errorState he)

/-! ## What a step can do -/

/-- Every instruction ends by success or by Halt. -/
theorem exec_ends (i : Instr) (s : State) : Ends (exec i s) s := (exec_runs s i).ends

/-- A step that executes succeeds or halts, in a state within reach (R101). -/
theorem step_ends {s : State} (h : s.executing = true) : ∃ u, Reach s u ∧
    (step s = .next { u with count := u.count + 1 } ∨ ∃ f, step s = .next (halt f u)) := by
  rw [step_of_executing h]
  obtain ⟨u, ho, hu⟩ | ⟨f, u, ho, hu⟩ := exec_ends (fetch s).1 (fetch s).2
  · exact ⟨u, (fetch_reach s).trans hu, .inl ho⟩
  · exact ⟨u, (fetch_reach s).trans hu, .inr ⟨f, ho⟩⟩

/-- Everything a step can do: nothing, success, or Halt (R100, R101). -/
theorem step_cases {s t : State} (h : step s = .next t) :
    t = s ∨ ∃ u, Reach s u ∧ (t = { u with count := u.count + 1 } ∨ ∃ f, t = halt f u) := by
  cases hs : s.executing with
  | false => exact .inl (Host.Outcome.next.inj ((step_of_not_executing hs).symm.trans h)).symm
  | true =>
    obtain ⟨u, hu, hok | ⟨f, hhalt⟩⟩ := step_ends hs
    · exact .inr ⟨u, hu, .inl (Host.Outcome.next.inj (h.symm.trans hok))⟩
    · exact .inr ⟨u, hu, .inr ⟨f, Host.Outcome.next.inj (h.symm.trans hhalt)⟩⟩

/-- Settles O16: the two ends of `step_ends`, with the fields that `Reach` keeps. -/
theorem stepSucceedsOrHalts : Obligations.StepSucceedsOrHalts := by
  intro s hs
  obtain ⟨hr, he⟩ : s.runningState = true ∧ s.errorState = false := by
    simpa [State.executing] using hs
  obtain ⟨u, hu, hok | ⟨f, hhalt⟩⟩ := step_ends hs
  · exact ⟨_, hok, .inl ⟨hu.runningState.trans hr, hu.errorState.trans he, hu.lastFault, hu.log,
      congrArg (· + 1) hu.count⟩⟩
  · exact ⟨_, hhalt, .inr ⟨f, u, rfl, hu.count, hu.log, rfl, rfl, rfl⟩⟩

/-- Settles O22: `Reach` extends the traces, and Halt writes one more log line. -/
theorem tracesOnlyGrow : Obligations.TracesOnlyGrow := by
  intro s t h
  obtain rfl | ⟨u, hu, hend⟩ := step_cases h
  · exact ⟨rfl, Nat.le_refl _, Nat.le_refl _, List.prefix_rfl, List.prefix_rfl⟩
  · obtain ⟨cs, hsink, -⟩ := hu.sink
    obtain rfl | ⟨f, rfl⟩ := hend
    · exact ⟨hu.rngAddr, hu.draws, hu.count ▸ Nat.le_succ _, ⟨cs, hsink.symm⟩, hu.log ▸ List.prefix_rfl⟩
    · exact ⟨hu.rngAddr, hu.draws, hu.count ▸ Nat.le_refl _, ⟨cs, hsink.symm⟩, [.halt f], by rw [halt_log, hu.log]⟩

/-! ## The invariant -/

/-- What an instruction has reached from a legal state is legal. -/
theorem legal_of_reach {s u : State} (hs : Legal s) (h : Reach s u) : Legal u where
  memory := h.mem hs.memory
  runState := by rw [h.runningState, h.errorState]; exact hs.runState
  fault := by rw [h.errorState, h.lastFault]; exact hs.fault
  window := by
    obtain ⟨cs, hsink, hcs⟩ := h.sink
    intro c hc
    rw [hsink, List.mem_append] at hc
    obtain hc | hc := hc
    · exact hs.window c hc
    · have hwindow := hcs c hc
      rwa [inDisplay_iff, decide_eq_true_eq] at hwindow

/-- Halt keeps a legal state legal (R244). -/
theorem legal_halt {s : State} (hs : Legal s) (f : Fault) : Legal (halt f s) :=
  ⟨hs.memory, fun h => Bool.false_ne_true h.1, rfl, hs.window⟩

/-- Settles O19: a step's end is within `Reach` but for the counter or for Halt, and all three keep a state
legal. -/
theorem everyStepKeepsTheInvariant : Obligations.EveryStepKeepsTheInvariant := by
  intro s t hs h
  obtain rfl | ⟨u, hu, rfl | ⟨f, rfl⟩⟩ := step_cases h
  · exact hs
  · obtain ⟨hmem, hrun, hfault, hwindow⟩ := legal_of_reach hs hu
    exact ⟨hmem, hrun, hfault, hwindow⟩
  · exact legal_halt (legal_of_reach hs hu) f

/-- Settles O20: memory empty, no fault recorded, no sink call made. -/
theorem resetMeetsTheInvariant : Obligations.ResetMeetsTheInvariant :=
  ⟨State.reset_mem_wf, fun h => Bool.false_ne_true h.1, rfl, fun _ hc => absurd hc List.not_mem_nil⟩

end Sys2Proof.Proofs
end

section
/-! PROOFS. 70_reset_and_hazards.md: what the host's commands do (R270 to R281), what they keep, and the batch
tick (R102). -/

namespace Sys2Proof.Proofs

open Sys2Proof Sys2Proof.Machine Sys2Proof.Safety

/-! ## The batch -/

/-- A property that each step keeps is kept by any number of steps. -/
theorem runSteps_keeps {P : State → Prop} (hstep : ∀ s t, P s → step s = .next t → P t) {n : Nat} {s t : State}
    (hs : P s) (h : runSteps n s = .next t) : P t := by
  induction n generalizing s with
  | zero => exact Host.Outcome.next.inj h ▸ hs
  | succ n ih =>
    simp only [runSteps] at h
    split at h
    · next u hu => exact ih (hstep s u hs hu) h
    · cases h
    · cases h

/-- A step always answers a next state (R101). -/
theorem step_isNext (s : State) : ∃ t, step s = .next t := by
  cases hs : s.executing with
  | false => exact ⟨s, step_of_not_executing hs⟩
  | true =>
    obtain ⟨u, -, h | ⟨f, h⟩⟩ := step_ends hs
    · exact ⟨_, h⟩
    · exact ⟨_, h⟩

/-- The state `k` steps after `s`. -/
def stateAfter (s : State) : Nat → State
  | 0 => s
  | k + 1 =>
    match step (stateAfter s k) with
    | .next t => t
    | _ => stateAfter s k

theorem step_stateAfter (s : State) (k : Nat) : step (stateAfter s k) = .next (stateAfter s (k + 1)) := by
  obtain ⟨t, ht⟩ := step_isNext (stateAfter s k)
  rw [stateAfter, ht]

/-- `n` steps lead along the states of `stateAfter`. -/
theorem runSteps_stateAfter (s : State) (n k : Nat) :
    runSteps n (stateAfter s k) = .next (stateAfter s (k + n)) := by
  induction n generalizing k with
  | zero => rfl
  | succ n ih =>
    simp only [runSteps, step_stateAfter]
    rw [ih, Nat.add_right_comm, Nat.add_assoc]

/-! ## Load -/

/-- A program load leaves at each of the last 65536 positions its own byte, addresses modulo 65536 (R280). -/
theorem loadBytes_get {start : Word} {bs : List Byte} {m : List Host.Cell} (hm : Memory.wf m = true) {i : Nat}
    {b : Byte} (hi : bs[i]? = some b) (hlen : bs.length ≤ i + 65536) :
    Memory.get (loadBytes start bs m) ((start.toNat + i) % 65536) = b := by
  induction bs generalizing start m i with
  | nil => simp at hi
  | cons c cs ih =>
    have hwf := Memory.wf_set hm start c
    rw [List.length_cons] at hlen
    have hstart := start.isLt
    have hnext : (start + 1).toNat = (start.toNat + 1) % 65536 := BitVec.toNat_add start 1
    cases i with
    | zero =>
      obtain rfl : c = b := by simpa using hi
      have hkept : ∀ j, j < cs.length → start.toNat ≠ ((start + 1).toNat + j) % 65536 := by
        intro j hj
        rw [hnext]
        omega
      rw [Nat.add_zero, Nat.mod_eq_of_lt hstart]
      exact (loadBytes_get_ne hkept _).trans (Memory.get_set_same hm c)
    | succ i =>
      have haddr : (start.toNat + (i + 1)) % 65536 = ((start + 1).toNat + i) % 65536 := by
        rw [hnext]
        omega
      rw [haddr]
      exact ih hwf (by simpa using hi) (by omega)

/-! ## What each command does -/

/-- The batch tick is 255 steps (R102). -/
theorem perform_tick (s : State) : perform .tick s = .next (stateAfter s 255) :=
  (runSteps_stateAfter s Config.batchSize 0).trans (by rw [Nat.zero_add]; rfl)

/-- Load is refused while Running (U13). -/
theorem perform_load_running {s : State} (h : s.runningState = true) (start : Word) (bytes : List Byte) :
    perform (.load start bytes) s = .refused .loadWhileRunning := if_pos h

/-- Load writes memory and PC (R280). -/
theorem perform_load {s : State} (h : s.runningState = false) (start : Word) (bytes : List Byte) :
    perform (.load start bytes) s = .next { s with mem := loadBytes start bytes s.mem, pc := start } :=
  if_neg (Bool.eq_false_iff.mp h)

/-- Stop outside Halted (R279). -/
theorem perform_stop {s : State} (h : s.errorState = false) :
    perform .stop s = .next { s with runningState := false } :=
  congrArg Host.Outcome.next (if_neg (Bool.eq_false_iff.mp h))

/-- Stop in Halted (decision D21). -/
theorem perform_stop_halted {s : State} (h : s.errorState = true) : perform .stop s = .next s :=
  congrArg Host.Outcome.next (if_pos h)

/-- Run on a Running core is a notice (R278). -/
theorem runCommand_running {s : State} (h : s.runningState = true) :
    runCommand s = { s with log := s.log ++ [.runRedundant] } := if_pos h

/-- Run on a Halted core is rejected (R278). -/
theorem runCommand_halted {s : State} (hr : s.runningState = false) (he : s.errorState = true) :
    runCommand s = { s with log := s.log ++ [.runRejected] } :=
  (if_neg (Bool.eq_false_iff.mp hr)).trans (if_pos he)

/-- Run starts a Stopped core (R278). -/
theorem runCommand_stopped {s : State} (hr : s.runningState = false) (he : s.errorState = false) :
    runCommand s = { s with runningState := true } :=
  (if_neg (Bool.eq_false_iff.mp hr)).trans (if_neg (Bool.eq_false_iff.mp he))

/-- Settles O57: one equation of `runCommand` for each run state. -/
theorem runCommandStartsOnlyAStoppedCore : Obligations.RunCommandStartsOnlyAStoppedCore := fun _ =>
  ⟨runCommand_stopped, runCommand_running, runCommand_halted, rfl⟩

/-- Settles O56: both states have the fields of `State.reset` by definition. -/
theorem resetValues : Obligations.ResetValues := by
  intro s r hr
  simp only [List.mem_cons, List.not_mem_nil, or_false] at hr
  obtain rfl | rfl := hr <;> exact ⟨rfl, rfl, rfl, rfl, rfl, rfl, fun _ => rfl, rfl, rfl⟩

/-- Settles O59: Load by `loadBytes_get` and `loadBytes_get_ne`, the tick by `stateAfter`. -/
theorem hostCommandsHaveTheirEffect : Obligations.HostCommandsHaveTheirEffect := by
  intro s
  refine ⟨⟨resetCommand s, rfl, rfl, rfl, rfl, rfl, rfl, rfl, fun _ => rfl, rfl, rfl, rfl, rfl, rfl⟩,
    perform_stop, perform_stop_halted, fun start bytes => ⟨fun h => perform_load_running h start bytes, ?_⟩, rfl,
    stateAfter s, rfl, fun k _ => step_stateAfter s k, perform_tick s⟩
  intro hr hm
  exact ⟨_, perform_load hr start bytes, fun i b => loadBytes_get hm, fun a ha => loadBytes_get_ne ha s.mem, rfl⟩

/-- Settles O58: the three cases of `perform_halted_cases`, of which only a load touches PC and memory. -/
theorem onlyResetLeavesHalted : Obligations.OnlyResetLeavesHalted := by
  intro c s t hr he hc h
  obtain rfl | rfl | ⟨start, bytes, rfl, rfl⟩ := perform_halted_cases hr he hc h
  · exact ⟨hr, he, rfl, rfl, rfl, rfl, rfl, rfl, rfl, rfl, fun _ => ⟨rfl, rfl⟩⟩
  · exact ⟨hr, he, rfl, rfl, rfl, rfl, rfl, rfl, rfl, rfl, fun _ => ⟨rfl, rfl⟩⟩
  · exact ⟨hr, he, rfl, rfl, rfl, rfl, rfl, rfl, rfl, rfl, fun hload => absurd rfl (hload start bytes)⟩

/-! ## The commands keep the invariant -/

/-- Run keeps a legal state legal: it starts a core only where no error is recorded (R278). -/
theorem legal_runCommand {s : State} (hs : Legal s) : Legal (runCommand s) := by
  obtain ⟨hmem, hrun, hfault, hwindow⟩ := hs
  cases hr : s.runningState with
  | true =>
    rw [runCommand_running hr]
    exact ⟨hmem, hrun, hfault, hwindow⟩
  | false =>
    cases he : s.errorState with
    | true =>
      rw [runCommand_halted hr he]
      exact ⟨hmem, hrun, hfault, hwindow⟩
    | false =>
      rw [runCommand_stopped hr he]
      exact ⟨hmem, fun h => Bool.false_ne_true (he.symm.trans h.2), hfault, hwindow⟩

/-- Stop keeps a legal state legal (R279). -/
theorem legal_stopCommand {s : State} (hs : Legal s) : Legal (stopCommand s) := by
  unfold stopCommand
  split
  · exact hs
  · exact ⟨hs.memory, fun h => Bool.false_ne_true h.1, hs.fault, hs.window⟩

/-- Settles O21: the batch tick by `runSteps_keeps` from the invariant of one step, a load by `loadBytes_wf`. -/
theorem everyCommandKeepsTheInvariant : Obligations.EveryCommandKeepsTheInvariant := by
  intro c s t hs h
  cases c with
  | reset =>
    obtain rfl := Host.Outcome.next.inj h
    exact ⟨State.reset_mem_wf, resetMeetsTheInvariant.runState, rfl, resetMeetsTheInvariant.window⟩
  | run => exact Host.Outcome.next.inj h ▸ legal_runCommand hs
  | stop => exact Host.Outcome.next.inj h ▸ legal_stopCommand hs
  | load start bytes =>
    cases hr : s.runningState with
    | true => exact absurd ((perform_load_running hr start bytes).symm.trans h) nofun
    | false =>
      obtain rfl := Host.Outcome.next.inj ((perform_load hr start bytes).symm.trans h)
      exact ⟨loadBytes_wf hs.memory start bytes, hs.runState, hs.fault, hs.window⟩
  | loadFailed => exact Host.Outcome.next.inj h ▸ hs
  | tick => exact runSteps_keeps everyStepKeepsTheInvariant hs h

end Sys2Proof.Proofs
end

section
/-! PROOFS. 40_execution_and_addressing.md section 5: branch targets (R123), the ALU in numbers (R124, R125) and
the bits that the flag operations leave alone. -/

namespace Sys2Proof.Proofs

open Sys2Proof Sys2Proof.Machine Sys2Proof.Safety

/-! ## Branch targets -/

/-- A branch adds the signed displacement, as a number modulo 65536 (R123). -/
theorem branchTarget_toNat (a : Word) (off : Byte) :
    ((branchTarget a off).toNat : Int) = ((a.toNat : Int) + off.toInt) % 65536 := by
  have hext : ((off.signExtend 16).toNat : Int) = off.toInt % 65536 := by
    rw [BitVec.signExtend, BitVec.toNat_ofInt]
    omega
  rw [branchTarget_eq, BitVec.toNat_add]
  omega

/-- Settles O27: the two directions are the two signs of the displacement in `branchTarget_toNat`. -/
theorem branchTargetIsSignedDisplacement : Obligations.BranchTargetIsSignedDisplacement := by
  intro a off
  have htarget := branchTarget_toNat a off
  have hoff := off.isLt
  rw [BitVec.toInt_eq_toNat_cond] at htarget
  refine ⟨fun h => ?_, fun h => ?_, branchTarget_toNat a off⟩
  · rw [if_neg (by omega)] at htarget
    omega
  · rw [if_pos (by omega)] at htarget
    omega

/-! ## Masks in numbers -/

theorem and_0x80_ne_zero (n : Nat) : (n &&& 0x80 != 0) = n.testBit 7 := by
  show (n &&& 2 ^ 7 != 0) = _
  rw [Nat.and_two_pow]
  cases n.testBit 7 <;> rfl

theorem and_0x0F (n : Nat) : n &&& 0x0F = n % 16 := Nat.and_two_pow_sub_one_eq_mod n 4

/-- The high nibble of each of the 256 bytes, in place. -/
theorem toNat_and_0xF0 : ∀ b : Byte, b.toNat &&& 0xF0 = 16 * (b.toNat / 16) := by decide

/-! ## AddWithCarry -/

/-- The sum of the low nibbles and the carry (R124). -/
def lowSum (a m : Byte) (c : Bool) : Nat := a.toNat % 16 + m.toNat % 16 + c.toNat

/-- The sum of the high nibbles and the decimal carry from the low ones (R124). -/
def highSum (a m : Byte) (c : Bool) : Nat := a.toNat / 16 + m.toNat / 16 + (if 10 ≤ lowSum a m c then 1 else 0)

/-- In binary mode the sum modulo 256, and the carry out of bit 7. -/
theorem adc_binary (a m : Byte) (c : Bool) :
    (adc a m c false).result.toNat = (a.toNat + m.toNat + c.toNat) % 256 ∧
    (adc a m c false).carry = decide (255 < a.toNat + m.toNat + c.toNat) :=
  ⟨BitVec.toNat_ofNat _ 8, rfl⟩

/-- The decimal sum by its two digits: the high one may still exceed the byte. -/
theorem adcDecimalSum_eq (a m : Byte) (c : Bool) :
    adcDecimalSum a.toNat m.toNat c.toNat =
      16 * (if 10 ≤ highSum a m c then highSum a m c + 6 else highSum a m c) + sumDigit (lowSum a m c) := by
  have hlow : a.toNat % 16 + m.toNat % 16 + c.toNat = lowSum a m c := rfl
  have hc := c.toNat_le
  have hbound : lowSum a m c ≤ 31 := by omega
  simp only [adcDecimalSum, and_0x0F, toNat_and_0xF0, hlow, highSum, sumDigit]
  split <;> split <;> split <;> omega

/-- In decimal mode each digit is the corrected sum, and the carry is the high digit's (R124, U4). -/
theorem adc_decimal (a m : Byte) (c : Bool) :
    (adc a m c true).result.toNat = 16 * sumDigit (highSum a m c) + sumDigit (lowSum a m c) ∧
    (adc a m c true).carry = decide (10 ≤ highSum a m c) := by
  have hdigit : sumDigit (lowSum a m c) < 16 := by
    unfold sumDigit
    split <;> omega
  have hhigh : highSum a m c ≤ 31 := by
    have := a.isLt
    have := m.isLt
    unfold highSum
    split <;> omega
  have hsum := adcDecimalSum_eq a m c
  constructor
  · show (BitVec.ofNat 8 (adcDecimalSum a.toNat m.toNat c.toNat)).toNat = _
    rw [BitVec.toNat_ofNat, hsum, sumDigit.eq_def (highSum a m c)]
    split <;> omega
  · show decide (0x100 ≤ adcDecimalSum a.toNat m.toNat c.toNat) = _
    rw [hsum, decide_eq_decide]
    split <;> omega

/-- V of an addition is its signed overflow, in both modes (R124). -/
theorem adc_overflow_iff (a m : Byte) (c d : Bool) : (adc a m c d).overflow = true ↔
    a.toInt + m.toInt + c.toNat < -128 ∨ 127 < a.toInt + m.toInt + c.toNat := by
  have hv : (adc a m c d).overflow =
      ((a.toNat ^^^ (a.toNat + m.toNat + c.toNat)) &&& (m.toNat ^^^ (a.toNat + m.toNat + c.toNat)) &&& 0x80 != 0) := by
    cases d <;> rfl
  have hc := c.toNat_le
  have ha := a.isLt
  have hm := m.isLt
  rw [hv, and_0x80_ne_zero, Nat.testBit_and, Nat.testBit_xor, Nat.testBit_xor, BitVec.toInt_eq_toNat_cond,
    BitVec.toInt_eq_toNat_cond]
  simp only [Nat.testBit_eq_decide_div_mod_eq, Bool.and_eq_true, bne_iff_ne, ne_eq, decide_eq_decide]
  split <;> split <;> omega

/-! ## SubtractWithCarry -/

/-- The difference of the low nibbles less the borrow (R125). -/
def lowDifference (a m : Byte) (c : Bool) : Int := (a.toNat % 16 : Nat) - (m.toNat % 16 : Nat) - (1 - (c.toNat : Int))

/-- The difference of the high nibbles less the borrow of the low ones (R125). -/
def highDifference (a m : Byte) (c : Bool) : Int :=
  (a.toNat / 16 : Nat) - (m.toNat / 16 : Nat) - (if lowDifference a m c < 0 then 1 else 0)

/-- The binary difference modulo 256. -/
theorem sbc_binary (a m : Byte) (c : Bool) :
    ((sbc a m c false).result.toNat : Int) = ((a.toNat : Int) - m.toNat - (1 - (c.toNat : Int))) % 256 := by
  show ((BitVec.ofInt 8 _).toNat : Int) = _
  rw [BitVec.toNat_ofInt]
  omega

/-- The carry of a subtraction is the binary no-borrow, in both modes (R125). -/
theorem sbc_carry_iff (a m : Byte) (c d : Bool) :
    (sbc a m c d).carry = true ↔ m.toNat + (1 - c.toNat) ≤ a.toNat := by
  have hc := c.toNat_le
  show decide (0 ≤ (a.toNat : Int) - m.toNat - (1 - (c.toNat : Int))) = true ↔ _
  rw [decide_eq_true_iff]
  omega

/-- The decimal difference by its two digits: the high one may still be negative. -/
theorem sbcDecimalDiff_eq (a m : Byte) (c : Bool) :
    sbcDecimalDiff a.toNat m.toNat c.toNat =
      16 * (if highDifference a m c < 0 then highDifference a m c - 6 else highDifference a m c) +
        differenceDigit (lowDifference a m c) := by
  have hlow : ((a.toNat % 16 : Nat) : Int) - (m.toNat % 16 : Nat) + c.toNat - 1 = lowDifference a m c := by
    unfold lowDifference
    omega
  have hc := c.toNat_le
  have hbound : lowDifference a m c ≤ 15 := by omega
  simp only [sbcDecimalDiff, and_0x0F, toNat_and_0xF0, hlow, highDifference, differenceDigit]
  split <;> split <;> split <;> omega

/-- In decimal mode each digit is the corrected difference (R125, U4). -/
theorem sbc_decimal (a m : Byte) (c : Bool) :
    ((sbc a m c true).result.toNat : Int) =
      16 * differenceDigit (highDifference a m c) + differenceDigit (lowDifference a m c) := by
  have hc := c.toNat_le
  have hdigit : 0 ≤ differenceDigit (lowDifference a m c) ∧ differenceDigit (lowDifference a m c) < 16 := by
    unfold differenceDigit lowDifference
    split <;> omega
  have hhigh : -16 ≤ highDifference a m c ∧ highDifference a m c ≤ 15 := by
    have := a.isLt
    have := m.isLt
    unfold highDifference
    split <;> omega
  show ((BitVec.ofInt 8 (sbcDecimalDiff a.toNat m.toNat c.toNat)).toNat : Int) = _
  rw [BitVec.toNat_ofInt, sbcDecimalDiff_eq, differenceDigit.eq_def (highDifference a m c)]
  split <;> omega

/-- V of a subtraction is its signed overflow, in both modes (R125). -/
theorem sbc_overflow_iff (a m : Byte) (c d : Bool) : (sbc a m c d).overflow = true ↔
    a.toInt - m.toInt - (1 - (c.toNat : Int)) < -128 ∨ 127 < a.toInt - m.toInt - (1 - (c.toNat : Int)) := by
  have hv : (sbc a m c d).overflow = checkFlag maskN ((a ^^^ m) &&& (a ^^^ (sbc a m c false).result)) := rfl
  have hbit (x : Byte) : x.getLsbD 7 = decide (x.toNat / 128 % 2 = 1) := by
    rw [← BitVec.testBit_toNat, Nat.testBit_eq_decide_div_mod_eq]
  have hresult := sbc_binary a m c
  have hc := c.toNat_le
  have ha := a.isLt
  have hm := m.isLt
  rw [hv, maskN_eq, checkFlag_bit 7 (by decide), BitVec.getLsbD_and, BitVec.getLsbD_xor, BitVec.getLsbD_xor,
    BitVec.toInt_eq_toNat_cond, BitVec.toInt_eq_toNat_cond]
  simp only [hbit, Bool.and_eq_true, bne_iff_ne, ne_eq, decide_eq_decide]
  split <;> split <;> omega

/-! ## Q10 -/

/-- With D clear a subtraction is the addition of the complement (R125, Q10). -/
theorem sbc_eq_adc_complement (a m : Byte) (c : Bool) : sbc a m c false = adc a (~~~m) c false := by
  have hm := m.isLt
  have hc := c.toNat_le
  have hnot : (~~~m).toNat = 255 - m.toNat := BitVec.toNat_not
  have hnotInt : (~~~m).toInt = -m.toInt - 1 := by
    rw [BitVec.toInt_eq_toNat_cond, BitVec.toInt_eq_toNat_cond, hnot]
    split <;> split <;> omega
  have hresult : (sbc a m c false).result = (adc a (~~~m) c false).result := by
    apply BitVec.eq_of_toNat_eq
    have hs := sbc_binary a m c
    have ha := (adc_binary a (~~~m) c).1
    omega
  have hcarry : (sbc a m c false).carry = (adc a (~~~m) c false).carry := by
    rw [Bool.eq_iff_iff, sbc_carry_iff, (adc_binary a (~~~m) c).2, decide_eq_true_iff]
    omega
  have hoverflow : (sbc a m c false).overflow = (adc a (~~~m) c false).overflow := by
    rw [Bool.eq_iff_iff, sbc_overflow_iff, adc_overflow_iff]
    omega
  show Alu.mk (sbc a m c false).result (sbc a m c false).carry (sbc a m c false).overflow = _
  rw [hresult, hcarry, hoverflow]

end Sys2Proof.Proofs
end

section
/-! PROOFS. 42_arithmetic_logic.md: ADC, SBC, AND, ORA, EOR, BIT, CMP, CPX, CPY (R160 to R168), and
41_load_store_transfer.md: the loads (R140 to R142). Each family has one shared meaning, whose next state is
written out once. -/

namespace Sys2Proof.Proofs

open Sys2Proof Sys2Proof.Machine Sys2Proof.Safety

/-! ## The forms of a family -/

/-- Every form listed has the opcode it is listed with, and its meaning is the family's on its operand. -/
def FormsRun {α : Type} (forms : List (Byte × Instr × α))
    (meaning : α → State → Host.Outcome State Fault Refusal) : Prop :=
  ∀ e ∈ forms, opcodeOf e.2.1 = some e.1 ∧ ∀ s, exec e.2.1 s = meaning e.2.2 s

section
variable {α : Type} {meaning : α → State → Host.Outcome State Fault Refusal}

theorem FormsRun.nil : FormsRun [] meaning := nofun

theorem FormsRun.cons {op : Byte} {i : Instr} {x : α} {forms : List (Byte × Instr × α)}
    (hop : opcodeOf i = some op) (hexec : ∀ s, exec i s = meaning x s) (h : FormsRun forms meaning) :
    FormsRun ((op, i, x) :: forms) meaning :=
  List.forall_mem_cons.mpr ⟨⟨hop, hexec⟩, h⟩

end

theorem ldaForms_run (b : Byte) (w : Word) : FormsRun (ldaForms b w) loadA := by
  repeat refine .cons rfl (fun _ => rfl) ?_
  exact .nil

theorem ldxForms_run (b : Byte) (w : Word) : FormsRun (ldxForms b w) loadX := by
  repeat refine .cons rfl (fun _ => rfl) ?_
  exact .nil

theorem ldyForms_run (b : Byte) (w : Word) : FormsRun (ldyForms b w) loadY := by
  repeat refine .cons rfl (fun _ => rfl) ?_
  exact .nil

theorem adcForms_run (b : Byte) (w : Word) : FormsRun (adcForms b w) addOperand := by
  repeat refine .cons rfl (fun _ => rfl) ?_
  exact .nil

theorem sbcForms_run (b : Byte) (w : Word) : FormsRun (sbcForms b w) subtractOperand := by
  repeat refine .cons rfl (fun _ => rfl) ?_
  exact .nil

theorem andForms_run (b : Byte) (w : Word) : FormsRun (andForms b w) (logicOperand (· &&& ·)) := by
  repeat refine .cons rfl (fun _ => rfl) ?_
  exact .nil

theorem oraForms_run (b : Byte) (w : Word) : FormsRun (oraForms b w) (logicOperand (· ||| ·)) := by
  repeat refine .cons rfl (fun _ => rfl) ?_
  exact .nil

theorem eorForms_run (b : Byte) (w : Word) : FormsRun (eorForms b w) (logicOperand (· ^^^ ·)) := by
  repeat refine .cons rfl (fun _ => rfl) ?_
  exact .nil

theorem bitForms_run (b : Byte) (w : Word) : FormsRun (bitForms b w) bitOperand := by
  repeat refine .cons rfl (fun _ => rfl) ?_
  exact .nil

theorem cmpForms_run (b : Byte) (w : Word) : FormsRun (cmpForms b w) (fun src s => compareOperand s.a src s) := by
  repeat refine .cons rfl (fun _ => rfl) ?_
  exact .nil

theorem cpxForms_run (b : Byte) (w : Word) : FormsRun (cpxForms b w) (fun src s => compareOperand s.x src s) := by
  repeat refine .cons rfl (fun _ => rfl) ?_
  exact .nil

theorem cpyForms_run (b : Byte) (w : Word) : FormsRun (cpyForms b w) (fun src s => compareOperand s.y src s) := by
  repeat refine .cons rfl (fun _ => rfl) ?_
  exact .nil

/-! ## Loads -/

theorem loadA_eq (src : Source) (s : State) : loadA src s = .next { (readOperand src s).2 with
    a := (readOperand src s).1, p := nzBits (readOperand src s).1 s.p, count := s.count + 1 } := by
  simp only [loadA, complete, setNZ, readOperand_p, readOperand_count]

theorem loadX_eq (src : Source) (s : State) : loadX src s = .next { (readOperand src s).2 with
    x := (readOperand src s).1, p := nzBits (readOperand src s).1 s.p, count := s.count + 1 } := by
  simp only [loadX, complete, setNZ, readOperand_p, readOperand_count]

theorem loadY_eq (src : Source) (s : State) : loadY src s = .next { (readOperand src s).2 with
    y := (readOperand src s).1, p := nzBits (readOperand src s).1 s.p, count := s.count + 1 } := by
  simp only [loadY, complete, setNZ, readOperand_p, readOperand_count]

/-- Settles O33: the three families by their equations, the flags by SetNZ's two lemmas. -/
theorem loadsComplete : Obligations.LoadsComplete := by
  intro b w s
  refine ⟨fun e he => ?_, fun e he => ?_, fun e he => ?_⟩
  · obtain ⟨hop, hexec⟩ := ldaForms_run b w e he
    exact ⟨hop, _, (hexec s).trans (loadA_eq e.2.2 s), nzBits_NZOf _ _, nzBits_sameBitsBut _ _, rfl⟩
  · obtain ⟨hop, hexec⟩ := ldxForms_run b w e he
    exact ⟨hop, _, (hexec s).trans (loadX_eq e.2.2 s), nzBits_NZOf _ _, nzBits_sameBitsBut _ _, rfl⟩
  · obtain ⟨hop, hexec⟩ := ldyForms_run b w e he
    exact ⟨hop, _, (hexec s).trans (loadY_eq e.2.2 s), nzBits_NZOf _ _, nzBits_sameBitsBut _ _, rfl⟩

/-! ## ADC and SBC -/

/-- P after an addition or subtraction (R124, R125). -/
def aluBits (r : Alu) (p : Byte) : Byte := nzBits r.result (setFlag maskC r.carry (setFlag maskV r.overflow p))

theorem getLsbD_aluBits (r : Alu) (p : Byte) (k : Nat) : (aluBits r p).getLsbD k =
    if k = 1 then r.result == 0 else if k = 7 then r.result.getLsbD 7 else
      if k = 0 then r.carry else if k = 6 then r.overflow else p.getLsbD k := by
  rw [aluBits, getLsbD_nzBits, getLsbD_setFlag_C, getLsbD_setFlag_V]

theorem aluBits_carry (r : Alu) (p : Byte) : (aluBits r p).getLsbD 0 = r.carry := getLsbD_aluBits r p 0

theorem aluBits_overflow (r : Alu) (p : Byte) : (aluBits r p).getLsbD 6 = r.overflow := getLsbD_aluBits r p 6

theorem aluBits_sameBitsBut (r : Alu) (p : Byte) : SameBitsBut [0, 1, 6, 7] p (aluBits r p) := by
  intro k hk
  simp only [List.mem_cons, List.not_mem_nil, or_false, not_or] at hk
  obtain ⟨h0, h1, h6, h7⟩ := hk
  rw [getLsbD_aluBits, if_neg h1, if_neg h7, if_neg h0, if_neg h6]

/-- An ALU result written to A and P after the operand has been read. -/
theorem complete_aluResult (r : Alu) (src : Source) (s : State) : complete (aluResult r (readOperand src s).2) =
    .next { (readOperand src s).2 with a := r.result, p := aluBits r s.p, count := s.count + 1 } := by
  simp only [complete, aluResult, setNZ, State.setFlag, aluBits, readOperand_p, readOperand_count]

theorem addOperand_eq (src : Source) (s : State) :
    let r := adc s.a (readOperand src s).1 (s.p.getLsbD 0) (s.p.getLsbD 3)
    addOperand src s =
      .next { (readOperand src s).2 with a := r.result, p := aluBits r s.p, count := s.count + 1 } := by
  intro r
  rw [addOperand, addWithCarry, flagC_eq, flagD_eq, readOperand_a, readOperand_p]
  exact complete_aluResult r src s

theorem subtractOperand_eq (src : Source) (s : State) :
    let r := sbc s.a (readOperand src s).1 (s.p.getLsbD 0) (s.p.getLsbD 3)
    subtractOperand src s =
      .next { (readOperand src s).2 with a := r.result, p := aluBits r s.p, count := s.count + 1 } := by
  intro r
  rw [subtractOperand, subtractWithCarry, flagC_eq, flagD_eq, readOperand_a, readOperand_p]
  exact complete_aluResult r src s

/-- Settles O28: V by `adc_overflow_iff`. -/
theorem adcCompletes : Obligations.AdcCompletes := by
  intro b w s e he
  obtain ⟨hop, hexec⟩ := adcForms_run b w e he
  refine ⟨hop, _, (hexec s).trans (addOperand_eq e.2.2 s), nzBits_NZOf _ _, aluBits_sameBitsBut _ _, ?_, rfl⟩
  rw [aluBits_overflow]
  exact adc_overflow_iff _ _ _ _

/-- On valid BCD operands the two digits are those of the decimal sum (R124). -/
theorem dec_of_sum_digits {a m r : Byte} {c : Bool} (ha : ValidBcd a) (hm : ValidBcd m)
    (hr : r.toNat = 16 * sumDigit (highSum a m c) + sumDigit (lowSum a m c)) :
    ValidBcd r ∧ dec r = (dec a + dec m + c.toNat) % 100 ∧ (10 ≤ highSum a m c ↔ 99 < dec a + dec m + c.toNat) := by
  obtain ⟨ha1, ha0⟩ := ha
  obtain ⟨hm1, hm0⟩ := hm
  have hc := c.toNat_le
  have hlow : lowSum a m c = a.toNat % 16 + m.toNat % 16 + c.toNat := rfl
  have hdigit (n : Nat) (hn : n ≤ 19) : sumDigit n = n % 10 := by
    unfold sumDigit
    split <;> omega
  have hhigh : highSum a m c = a.toNat / 16 + m.toNat / 16 + lowSum a m c / 10 := by
    unfold highSum
    split <;> omega
  rw [hdigit _ (by omega), hdigit _ (by omega)] at hr
  unfold ValidBcd dec
  omega

/-- Settles O29: binary by `adc_binary`, any decimal operands by `adc_decimal`, valid BCD by
`dec_of_sum_digits`. -/
theorem adcResult : Obligations.AdcResult := by
  intro b w s e he
  obtain ⟨-, hexec⟩ := adcForms_run b w e he
  have hrun := (hexec s).trans (addOperand_eq e.2.2 s)
  refine ⟨fun hd => ?_, fun hd ha hm => ?_, fun hd => ?_⟩ <;> rw [hd] at hrun
  · obtain ⟨hresult, hcarry⟩ := adc_binary s.a (readOperand e.2.2 s).1 (s.p.getLsbD 0)
    exact ⟨_, hrun, hresult, (aluBits_carry _ _).trans hcarry⟩
  · obtain ⟨hresult, hcarry⟩ := adc_decimal s.a (readOperand e.2.2 s).1 (s.p.getLsbD 0)
    obtain ⟨hvalid, hdec, hover⟩ := dec_of_sum_digits ha hm hresult
    exact ⟨_, hrun, hvalid, hdec, (aluBits_carry _ _).trans (hcarry.trans (decide_eq_decide.mpr hover))⟩
  · obtain ⟨hresult, hcarry⟩ := adc_decimal s.a (readOperand e.2.2 s).1 (s.p.getLsbD 0)
    exact ⟨_, hrun, hresult, (aluBits_carry _ _).trans hcarry⟩

/-- Settles O30: C by `sbc_carry_iff`, V by `sbc_overflow_iff`. -/
theorem sbcCompletes : Obligations.SbcCompletes := by
  intro b w s e he
  obtain ⟨hop, hexec⟩ := sbcForms_run b w e he
  refine ⟨hop, _, (hexec s).trans (subtractOperand_eq e.2.2 s), nzBits_NZOf _ _, aluBits_sameBitsBut _ _, ?_, ?_, rfl⟩
  · rw [aluBits_carry]
    exact sbc_carry_iff _ _ _ _
  · rw [aluBits_overflow]
    exact sbc_overflow_iff _ _ _ _

/-- On valid BCD operands the two digits are those of the decimal difference (R125). -/
theorem dec_of_difference_digits {a m r : Byte} {c : Bool} (ha : ValidBcd a) (hm : ValidBcd m)
    (hr : (r.toNat : Int) = 16 * differenceDigit (highDifference a m c) + differenceDigit (lowDifference a m c)) :
    ValidBcd r ∧ (dec r : Int) = ((dec a : Int) - dec m - (1 - (c.toNat : Int))) % 100 := by
  obtain ⟨ha1, ha0⟩ := ha
  obtain ⟨hm1, hm0⟩ := hm
  have hc := c.toNat_le
  have hlow : lowDifference a m c = (a.toNat % 16 : Nat) - (m.toNat % 16 : Nat) - (1 - (c.toNat : Int)) := rfl
  have hdigit (n : Int) (hn : -10 ≤ n ∧ n ≤ 9) : differenceDigit n = n % 10 := by
    unfold differenceDigit
    split <;> omega
  have hhigh : highDifference a m c = (a.toNat / 16 : Nat) - (m.toNat / 16 : Nat) + lowDifference a m c / 10 := by
    unfold highDifference
    split <;> omega
  rw [hdigit _ (by omega), hdigit _ (by omega)] at hr
  unfold ValidBcd dec
  omega

/-- Settles O31: binary by `sbc_binary`, any decimal operands by `sbc_decimal`, valid BCD by
`dec_of_difference_digits`. -/
theorem sbcResult : Obligations.SbcResult := by
  intro b w s e he
  obtain ⟨-, hexec⟩ := sbcForms_run b w e he
  have hrun := (hexec s).trans (subtractOperand_eq e.2.2 s)
  refine ⟨fun hd => ?_, fun hd ha hm => ?_, fun hd => ?_⟩ <;> rw [hd] at hrun
  · exact ⟨_, hrun, sbc_binary _ _ _⟩
  · obtain ⟨hvalid, hdec⟩ := dec_of_difference_digits ha hm (sbc_decimal s.a _ (s.p.getLsbD 0))
    exact ⟨_, hrun, hvalid, hdec⟩
  · exact ⟨_, hrun, sbc_decimal _ _ _⟩

/-- Settles O32: the two immediate forms run the same ALU result (`sbc_eq_adc_complement`). -/
theorem sbcIsAdcOfComplement : Obligations.SbcIsAdcOfComplement := by
  intro b s t hd h
  have hsame : exec (.sbcImmediate b) s = exec (.adcImmediate (~~~b)) s := by
    calc exec (.sbcImmediate b) s = subtractOperand (.immediate b) s := rfl
      _ = addOperand (.immediate (~~~b)) s := by
        rw [subtractOperand_eq, addOperand_eq, hd]
        exact sbc_eq_adc_complement s.a b (s.p.getLsbD 0) ▸ rfl
      _ = exec (.adcImmediate (~~~b)) s := rfl
  exact hsame ▸ h

/-! ## AND, ORA, EOR -/

theorem logicOperand_eq (f : Byte → Byte → Byte) (src : Source) (s : State) :
    let r := f s.a (readOperand src s).1
    logicOperand f src s = .next { (readOperand src s).2 with a := r, p := nzBits r s.p, count := s.count + 1 } := by
  simp only [logicOperand, complete, setNZ, readOperand_p, readOperand_count]

/-- One family of logic forms: the operation on bytes is `g` on each bit. -/
theorem logicForms_complete {forms : List (Byte × Instr × Source)} {f : Byte → Byte → Byte} {g : Bool → Bool → Bool}
    (hrun : FormsRun forms (logicOperand f))
    (hbits : ∀ a m : Byte, ∀ k, (f a m).getLsbD k = g (a.getLsbD k) (m.getLsbD k)) (s : State) :
    ∀ e ∈ forms, opcodeOf e.2.1 = some e.1 ∧ ∃ t, exec e.2.1 s = .next t ∧
      (∀ k, k < 8 → t.a.getLsbD k = g (s.a.getLsbD k) ((readOperand e.2.2 s).1.getLsbD k)) ∧
      NZOf t.a t.p ∧ SameBitsBut [1, 7] s.p t.p ∧
      t = { (readOperand e.2.2 s).2 with a := t.a, p := t.p, count := s.count + 1 } := by
  intro e he
  obtain ⟨hop, hexec⟩ := hrun e he
  exact ⟨hop, _, (hexec s).trans (logicOperand_eq f e.2.2 s), fun k _ => hbits _ _ k, nzBits_NZOf _ _,
    nzBits_sameBitsBut _ _, rfl⟩

/-- Settles O36: the three families, each bitwise. -/
theorem logicCompletes : Obligations.LogicCompletes := by
  intro b w s
  simp only [List.forall_mem_cons, List.not_mem_nil, false_imp_iff, implies_true, and_true]
  exact ⟨logicForms_complete (andForms_run b w) (fun _ _ _ => BitVec.getLsbD_and) s,
    logicForms_complete (oraForms_run b w) (fun _ _ _ => BitVec.getLsbD_or) s,
    logicForms_complete (eorForms_run b w) (fun _ _ _ => BitVec.getLsbD_xor) s⟩

/-! ## BIT -/

/-- P after BIT of the operand `m` (R165). -/
def bitBits (a m p : Byte) : Byte :=
  setFlag maskV (m.getLsbD 6) (setFlag maskN (m.getLsbD 7) (setFlag maskZ (a &&& m == 0) p))

theorem getLsbD_bitBits (a m p : Byte) (k : Nat) : (bitBits a m p).getLsbD k =
    if k = 6 then m.getLsbD 6 else if k = 7 then m.getLsbD 7 else if k = 1 then a &&& m == 0 else p.getLsbD k := by
  rw [bitBits, getLsbD_setFlag_V, getLsbD_setFlag_N, getLsbD_setFlag_Z]

theorem bitBits_sameBitsBut (a m p : Byte) : SameBitsBut [1, 6, 7] p (bitBits a m p) := by
  intro k hk
  simp only [List.mem_cons, List.not_mem_nil, or_false, not_or] at hk
  obtain ⟨h1, h6, h7⟩ := hk
  rw [getLsbD_bitBits, if_neg h6, if_neg h7, if_neg h1]

theorem bitOperand_eq (src : Source) (s : State) : bitOperand src s = .next { (readOperand src s).2 with
    p := bitBits s.a (readOperand src s).1 s.p, count := s.count + 1 } := by
  simp only [bitOperand, complete, State.setFlag, bitBits, readOperand_p, readOperand_count]

/-- Two bytes have no common bit exactly when their conjunction is 0. -/
theorem and_eq_zero_iff (a m : Byte) :
    (a &&& m == 0) = true ↔ ∀ k, k < 8 → ¬(a.getLsbD k = true ∧ m.getLsbD k = true) := by
  rw [beq_iff_eq]
  constructor
  · intro h k hk hbits
    have hand : (a &&& m).getLsbD k = true := by rw [BitVec.getLsbD_and, hbits.1, hbits.2]; rfl
    rw [h] at hand
    exact Bool.false_ne_true (BitVec.getLsbD_zero.symm.trans hand)
  · intro h
    apply BitVec.eq_of_getLsbD_eq
    intro k hk
    have hbits := h k hk
    rw [BitVec.getLsbD_and]
    simpa using hbits

/-- Settles O37: the bits of `bitBits`. -/
theorem bitCompletes : Obligations.BitCompletes := by
  intro b w s e he
  obtain ⟨hop, hexec⟩ := bitForms_run b w e he
  refine ⟨hop, _, (hexec s).trans (bitOperand_eq e.2.2 s), ?_, getLsbD_bitBits _ _ _ 7, getLsbD_bitBits _ _ _ 6,
    bitBits_sameBitsBut _ _ _, rfl⟩
  rw [getLsbD_bitBits]
  exact and_eq_zero_iff s.a _

/-! ## Compares -/

/-- P after Compare of `r` with `m` (R122). -/
def compareBits (r m p : Byte) : Byte := nzBits (r - m) (setFlag maskC (compareCarry r m) p)

theorem getLsbD_compareBits (r m p : Byte) (k : Nat) : (compareBits r m p).getLsbD k =
    if k = 1 then r - m == 0 else if k = 7 then (r - m).getLsbD 7 else
      if k = 0 then decide (m ≤ r) else p.getLsbD k := by
  rw [compareBits, getLsbD_nzBits, getLsbD_setFlag_C, compareCarry_eq]

theorem compareBits_sameBitsBut (r m p : Byte) : SameBitsBut [0, 1, 7] p (compareBits r m p) := by
  intro k hk
  simp only [List.mem_cons, List.not_mem_nil, or_false, not_or] at hk
  obtain ⟨h0, h1, h7⟩ := hk
  rw [getLsbD_compareBits, if_neg h1, if_neg h7, if_neg h0]

theorem compareOperand_eq (reg : Byte) (src : Source) (s : State) : compareOperand reg src s =
    .next { (readOperand src s).2 with p := compareBits reg (readOperand src s).1 s.p, count := s.count + 1 } := by
  simp only [compareOperand, complete, Machine.compare, setNZ, State.setFlag, compareBits, readOperand_p,
    readOperand_count]

/-- C, Z and N of a compare, as numbers (R122, decision D8). -/
theorem compareBits_flags (r m p : Byte) :
    ((compareBits r m p).getLsbD 0 = true ↔ m.toNat ≤ r.toNat) ∧
    ((compareBits r m p).getLsbD 1 = true ↔ r = m) ∧
    ((compareBits r m p).getLsbD 7 = true ↔ 128 ≤ (r.toNat + 256 - m.toNat) % 256) := by
  have hm := m.isLt
  have hsub : (r - m).toNat = (r.toNat + 256 - m.toNat) % 256 := by
    rw [BitVec.toNat_sub]
    omega
  rw [getLsbD_compareBits, getLsbD_compareBits, getLsbD_compareBits]
  refine ⟨decide_eq_true_iff, ?_, ?_⟩
  · rw [if_pos rfl, beq_iff_eq, ← BitVec.toNat_inj, hsub, ← BitVec.toNat_inj]
    have := r.isLt
    show _ = 0 ↔ _
    omega
  · rw [if_neg (by decide), if_pos rfl, ← BitVec.testBit_toNat, Nat.testBit_eq_decide_div_mod_eq, decide_eq_true_iff,
      hsub]
    omega

/-- One family of compare forms, of the register that `reg` reads. -/
theorem compareForms_complete {forms : List (Byte × Instr × Source)} {reg : State → Byte}
    (hrun : FormsRun forms (fun src s => compareOperand (reg s) src s)) (s : State) :
    ∀ e ∈ forms, opcodeOf e.2.1 = some e.1 ∧ ∃ t, exec e.2.1 s = .next t ∧
      (t.p.getLsbD 0 = true ↔ (readOperand e.2.2 s).1.toNat ≤ (reg s).toNat) ∧
      (t.p.getLsbD 1 = true ↔ reg s = (readOperand e.2.2 s).1) ∧
      (t.p.getLsbD 7 = true ↔ 128 ≤ ((reg s).toNat + 256 - (readOperand e.2.2 s).1.toNat) % 256) ∧
      SameBitsBut [0, 1, 7] s.p t.p ∧ t = { (readOperand e.2.2 s).2 with p := t.p, count := s.count + 1 } := by
  intro e he
  obtain ⟨hop, hexec⟩ := hrun e he
  obtain ⟨hC, hZ, hN⟩ := compareBits_flags (reg s) (readOperand e.2.2 s).1 s.p
  exact ⟨hop, _, (hexec s).trans (compareOperand_eq _ e.2.2 s), hC, hZ, hN, compareBits_sameBitsBut _ _ _, rfl⟩

/-- Settles O38: the three families, of A, X and Y. -/
theorem comparesComplete : Obligations.ComparesComplete := by
  intro b w s
  simp only [List.forall_mem_cons, List.not_mem_nil, false_imp_iff, implies_true, and_true]
  exact ⟨compareForms_complete (cmpForms_run b w) s, compareForms_complete (cpxForms_run b w) s,
    compareForms_complete (cpyForms_run b w) s⟩

end Sys2Proof.Proofs
end

section
/-! PROOFS. 41_load_store_transfer.md: stores and transfers (R143 to R151); 43_incdec_shift.md: increments, shifts
and rotates (R180 to R189); 45_stack_flags_system.md: the flag instructions and NOP (R224 to R231). -/

namespace Sys2Proof.Proofs

open Sys2Proof Sys2Proof.Machine Sys2Proof.Safety

/-! ## The forms -/

theorem staForms_run (b : Byte) (w : Word) : FormsRun (staForms b w) (fun m s => complete (storeAt m s.a s)) := by
  repeat refine .cons rfl (fun _ => rfl) ?_
  exact .nil

theorem stxForms_run (b : Byte) (w : Word) : FormsRun (stxForms b w) (fun m s => complete (storeAt m s.x s)) := by
  repeat refine .cons rfl (fun _ => rfl) ?_
  exact .nil

theorem styForms_run (b : Byte) (w : Word) : FormsRun (styForms b w) (fun m s => complete (storeAt m s.y s)) := by
  repeat refine .cons rfl (fun _ => rfl) ?_
  exact .nil

theorem incForms_run (b : Byte) (w : Word) : FormsRun (incForms b w) (fun m => modifyNZ m (· + 1)) := by
  repeat refine .cons rfl (fun _ => rfl) ?_
  exact .nil

theorem decForms_run (b : Byte) (w : Word) : FormsRun (decForms b w) (fun m => modifyNZ m (· - 1)) := by
  repeat refine .cons rfl (fun _ => rfl) ?_
  exact .nil

theorem aslForms_run (b : Byte) (w : Word) : FormsRun (aslForms b w) (fun m => shiftMemory m shiftLeft outLeft) := by
  repeat refine .cons rfl (fun _ => rfl) ?_
  exact .nil

theorem lsrForms_run (b : Byte) (w : Word) : FormsRun (lsrForms b w) (fun m => shiftMemory m shiftRight outRight) := by
  repeat refine .cons rfl (fun _ => rfl) ?_
  exact .nil

theorem rolForms_run (b : Byte) (w : Word) :
    FormsRun (rolForms b w) (fun m s => shiftMemory m (rotateLeft s.flagC) outLeft s) := by
  repeat refine .cons rfl (fun _ => rfl) ?_
  exact .nil

theorem rorForms_run (b : Byte) (w : Word) :
    FormsRun (rorForms b w) (fun m s => shiftMemory m (rotateRight s.flagC) outRight s) := by
  repeat refine .cons rfl (fun _ => rfl) ?_
  exact .nil

/-! ## One write to memory -/

/-- The memory after one store of `v` at `addr`, and the sink trace with it. -/
structure WroteByte (addr : Word) (v : Byte) (s t : State) : Prop where
  cell : Memory.get t.mem addr.toNat = v
  others : SameMemoryBut [addr.toNat] s t
  sink : t.sink = sinkAfter addr v s

/-- MemWrite in a state with the memory and the sink trace of `s` (R44, R45). -/
theorem memWrite_wroteByte {s s' : State} (hm : Memory.wf s.mem = true) (hmem : s'.mem = s.mem)
    (hsink : s'.sink = s.sink) (addr : Word) (v : Byte) : WroteByte addr v s (memWrite addr v s') where
  cell := by rw [memWrite_mem, hmem, Memory.get_set_same hm]
  others := by
    intro a ha
    rw [List.mem_singleton] at ha
    rw [memWrite_mem, hmem, Memory.get_set_ne ha]
  sink := by rw [memWrite_sinkAfter, sinkAfter, sinkAfter, hsink]

/-! ## Stores -/

theorem storeAt_wroteByte {s : State} (hm : Memory.wf s.mem = true) (m : Address) (v : Byte) :
    WroteByte (m.resolve s).1 v s (storeAt m v s) :=
  memWrite_wroteByte hm (resolve_mem m s) (resolve_sink m s) _ v

/-- A store in numbers: memory, sink trace and counter change, and the draws of resolving the address (R143). -/
theorem complete_storeAt (m : Address) (v : Byte) (s : State) : complete (storeAt m v s) =
    .next { (m.resolve s).2 with mem := (storeAt m v s).mem, sink := (storeAt m v s).sink, count := s.count + 1 } := by
  simp only [complete, storeAt, memWrite, resolve_count]

/-- One family of store forms, of the register that `reg` reads. -/
theorem storeForms_complete {forms : List (Byte × Instr × Address)} {reg : State → Byte}
    (hrun : FormsRun forms (fun m s => complete (storeAt m (reg s) s))) {s : State} (hm : Memory.wf s.mem = true) :
    ∀ e ∈ forms, opcodeOf e.2.1 = some e.1 ∧ ∃ t, exec e.2.1 s = .next t ∧
      Memory.get t.mem (e.2.2.resolve s).1.toNat = reg s ∧ SameMemoryBut [(e.2.2.resolve s).1.toNat] s t ∧
      t.sink = sinkAfter (e.2.2.resolve s).1 (reg s) s ∧
      t = { (e.2.2.resolve s).2 with mem := t.mem, sink := t.sink, count := s.count + 1 } := by
  intro e he
  obtain ⟨hop, hexec⟩ := hrun e he
  obtain ⟨hcell, hothers, hsink⟩ := storeAt_wroteByte hm e.2.2 (reg s)
  exact ⟨hop, _, (hexec s).trans (complete_storeAt e.2.2 (reg s) s), hcell, hothers, hsink, rfl⟩

/-- Settles O34: the three families, of A, X and Y. -/
theorem storesComplete : Obligations.StoresComplete := by
  intro b w s hm
  simp only [List.forall_mem_cons, List.not_mem_nil, false_imp_iff, implies_true, and_true]
  exact ⟨storeForms_complete (staForms_run b w) hm, storeForms_complete (stxForms_run b w) hm,
    storeForms_complete (styForms_run b w) hm⟩

/-! ## Transfers -/

/-- A meaning that writes registers and then N and Z of `v`. -/
theorem complete_setNZ (v : Byte) (s : State) :
    complete (setNZ v s) = .next { s with p := nzBits v s.p, count := s.count + 1 } := rfl

/-- Settles O35: each transfer is SetNZ after one register copy, and TXS the copy alone. -/
theorem transfersComplete : Obligations.TransfersComplete := by
  intro s
  refine ⟨?_, rfl, rfl⟩
  simp only [List.forall_mem_cons, List.not_mem_nil, false_imp_iff, implies_true, and_true]
  exact ⟨⟨rfl, _, complete_setNZ _ _, nzBits_NZOf _ _, nzBits_sameBitsBut _ _, rfl⟩,
    ⟨rfl, _, complete_setNZ _ _, nzBits_NZOf _ _, nzBits_sameBitsBut _ _, rfl⟩,
    ⟨rfl, _, complete_setNZ _ _, nzBits_NZOf _ _, nzBits_sameBitsBut _ _, rfl⟩,
    ⟨rfl, _, complete_setNZ _ _, nzBits_NZOf _ _, nzBits_sameBitsBut _ _, rfl⟩,
    ⟨rfl, _, complete_setNZ _ _, nzBits_NZOf _ _, nzBits_sameBitsBut _ _, rfl⟩⟩

/-! ## Increments and decrements -/

/-- One more, modulo 256. -/
theorem byte_add_one_toNat (v : Byte) : (v + 1).toNat = (v.toNat + 1) % 256 := BitVec.toNat_add v 1

/-- One less is 255 more, modulo 256. -/
theorem byte_sub_one_toNat (v : Byte) : (v - 1).toNat = (v.toNat + 255) % 256 := by
  rw [BitVec.toNat_sub, Nat.add_comm]
  rfl

/-- Settles O40: one register step each, then SetNZ. -/
theorem incDecRegisterComplete : Obligations.IncDecRegisterComplete := by
  intro s
  simp only [List.forall_mem_cons, List.not_mem_nil, false_imp_iff, implies_true, and_true]
  exact ⟨⟨⟨rfl, _, complete_setNZ _ _, byte_add_one_toNat s.x, nzBits_NZOf _ _, nzBits_sameBitsBut _ _, rfl⟩,
      ⟨rfl, _, complete_setNZ _ _, byte_sub_one_toNat s.x, nzBits_NZOf _ _, nzBits_sameBitsBut _ _, rfl⟩⟩,
    ⟨rfl, _, complete_setNZ _ _, byte_add_one_toNat s.y, nzBits_NZOf _ _, nzBits_sameBitsBut _ _, rfl⟩,
    ⟨rfl, _, complete_setNZ _ _, byte_sub_one_toNat s.y, nzBits_NZOf _ _, nzBits_sameBitsBut _ _, rfl⟩⟩

/-! ## Modify -/

/-- The byte a read-modify-write reads: one MemRead at the effective address (R128). -/
def oldByte (m : Address) (s : State) : Byte := (memRead (m.resolve s).1 (m.resolve s).2).1

theorem modify_wroteByte {s : State} (hm : Memory.wf s.mem = true) (m : Address) (f : Byte → Byte) :
    WroteByte (m.resolve s).1 (f (oldByte m s)) s (modify m f s).2 :=
  memWrite_wroteByte hm ((memRead_mem _ _).trans (resolve_mem m s)) ((memRead_sink _ _).trans (resolve_sink m s)) _ _

theorem modifyNZ_eq (m : Address) (f : Byte → Byte) (s : State) : modifyNZ m f s =
    .next { (memRead (m.resolve s).1 (m.resolve s).2).2 with
      mem := (modify m f s).2.mem, sink := (modify m f s).2.sink, p := nzBits (f (oldByte m s)) s.p,
      count := s.count + 1 } := by
  simp only [modifyNZ, complete, setNZ, Machine.modify, memWrite, oldByte, memRead_p, resolve_p, memRead_count,
    resolve_count]

/-- One family of INC or DEC forms, by the number that `f` adds modulo 256. -/
theorem modifyForms_complete {forms : List (Byte × Instr × Address)} {f : Byte → Byte} {n : Nat}
    (hrun : FormsRun forms (fun m => modifyNZ m f)) (hf : ∀ v, (f v).toNat = (v.toNat + n) % 256) {s : State}
    (hm : Memory.wf s.mem = true) :
    ∀ e ∈ forms,
      let ea := e.2.2.resolve s
      let old := memRead ea.1 ea.2
      opcodeOf e.2.1 = some e.1 ∧ ∃ t, exec e.2.1 s = .next t ∧
        (Memory.get t.mem ea.1.toNat).toNat = (old.1.toNat + n) % 256 ∧ SameMemoryBut [ea.1.toNat] s t ∧
        t.sink = sinkAfter ea.1 (Memory.get t.mem ea.1.toNat) s ∧
        NZOf (Memory.get t.mem ea.1.toNat) t.p ∧ SameBitsBut [1, 7] s.p t.p ∧
        t = { old.2 with mem := t.mem, sink := t.sink, p := t.p, count := s.count + 1 } := by
  intro e he
  obtain ⟨hop, hexec⟩ := hrun e he
  obtain ⟨hcell, hothers, hsink⟩ := modify_wroteByte hm e.2.2 f
  refine ⟨hop, _, (hexec s).trans (modifyNZ_eq e.2.2 f s), ?_, hothers, ?_, ?_, nzBits_sameBitsBut _ _, rfl⟩
  · exact hcell ▸ hf _
  · exact hcell.symm ▸ hsink
  · exact hcell.symm ▸ nzBits_NZOf _ _

/-- Settles O39: INC adds 1 and DEC adds 255, modulo 256. -/
theorem incDecMemoryComplete : Obligations.IncDecMemoryComplete := by
  intro b w s hm
  simp only [List.forall_mem_cons, List.not_mem_nil, false_imp_iff, implies_true, and_true]
  exact ⟨modifyForms_complete (incForms_run b w) byte_add_one_toNat hm,
    modifyForms_complete (decForms_run b w) byte_sub_one_toNat hm⟩

/-! ## Shifts and rotates -/

theorem shiftLeft_toNat (v : Byte) : (shiftLeft v).toNat = 2 * v.toNat % 256 := by
  rw [shiftLeft, BitVec.toNat_shiftLeft, Nat.shiftLeft_eq, Nat.mul_comm]

theorem shiftRight_toNat (v : Byte) : (shiftRight v).toNat = v.toNat / 2 := BitVec.toNat_ushiftRight v 1

theorem rotateLeft_toNat (c : Bool) (v : Byte) : (rotateLeft c v).toNat = (2 * v.toNat + c.toNat) % 256 := by
  revert v
  cases c <;> decide

theorem rotateRight_toNat (c : Bool) (v : Byte) : (rotateRight c v).toNat = v.toNat / 2 + 128 * c.toNat := by
  revert v
  cases c <;> decide

/-- P after a shift or rotate with result `r` and the bit `out` moved out (R186 to R189). -/
def shiftBits (r : Byte) (out : Bool) (p : Byte) : Byte := nzBits r (setFlag maskC out p)

theorem shiftBits_carry (r : Byte) (out : Bool) (p : Byte) : (shiftBits r out p).getLsbD 0 = out := by
  rw [shiftBits, getLsbD_nzBits, getLsbD_setFlag_C]
  rfl

theorem shiftBits_sameBitsBut (r : Byte) (out : Bool) (p : Byte) : SameBitsBut [0, 1, 7] p (shiftBits r out p) := by
  intro k hk
  simp only [List.mem_cons, List.not_mem_nil, or_false, not_or] at hk
  obtain ⟨h0, h1, h7⟩ := hk
  rw [shiftBits, getLsbD_nzBits, getLsbD_setFlag_C, if_neg h1, if_neg h7, if_neg h0]

theorem shiftAccumulator_eq (f : Byte → Byte) (out : Byte → Bool) (s : State) : shiftAccumulator f out s =
    .next { s with a := f s.a, p := shiftBits (f s.a) (out s.a) s.p, count := s.count + 1 } := rfl

/-- One accumulator form, by its result as a number. -/
theorem shiftAccumulator_completes {f : Byte → Byte} {out : Byte → Bool} {s : State} {n : Nat}
    (hf : (f s.a).toNat = n) :
    ∃ t, shiftAccumulator f out s = .next t ∧ t.a.toNat = n ∧ t.p.getLsbD 0 = out s.a ∧ NZOf t.a t.p ∧
      SameBitsBut [0, 1, 7] s.p t.p ∧ t = { s with a := t.a, p := t.p, count := s.count + 1 } :=
  ⟨_, shiftAccumulator_eq f out s, hf, shiftBits_carry _ _ _, nzBits_NZOf _ _, shiftBits_sameBitsBut _ _ _, rfl⟩

/-- The carry that a rotate brings in is bit 0 of P. -/
theorem flagC_toNat (s : State) : s.flagC.toNat = carryIn s := congrArg Bool.toNat (flagC_eq s)

theorem rotateLeft_flagC_toNat (s : State) (v : Byte) :
    (rotateLeft s.flagC v).toNat = (2 * v.toNat + carryIn s) % 256 := by rw [rotateLeft_toNat, flagC_toNat]

theorem rotateRight_flagC_toNat (s : State) (v : Byte) :
    (rotateRight s.flagC v).toNat = v.toNat / 2 + 128 * carryIn s := by rw [rotateRight_toNat, flagC_toNat]

/-- Settles O41: the four results as numbers, with the carry of `shiftBits`. -/
theorem shiftAccumulatorCompletes : Obligations.ShiftAccumulatorCompletes := by
  intro s
  simp only [List.forall_mem_cons, List.not_mem_nil, false_imp_iff, implies_true, and_true]
  exact ⟨⟨rfl, shiftAccumulator_completes (shiftLeft_toNat s.a)⟩,
    ⟨rfl, shiftAccumulator_completes (shiftRight_toNat s.a)⟩,
    ⟨rfl, shiftAccumulator_completes (rotateLeft_flagC_toNat s s.a)⟩,
    ⟨rfl, shiftAccumulator_completes (rotateRight_flagC_toNat s s.a)⟩⟩

theorem shiftMemory_eq (m : Address) (f : Byte → Byte) (out : Byte → Bool) (s : State) : shiftMemory m f out s =
    .next { (memRead (m.resolve s).1 (m.resolve s).2).2 with
      mem := (modify m f s).2.mem, sink := (modify m f s).2.sink,
      p := shiftBits (f (oldByte m s)) (out (oldByte m s)) s.p, count := s.count + 1 } := by
  simp only [shiftMemory, complete, setNZ, State.setFlag, Machine.modify, memWrite, oldByte, shiftBits, memRead_p,
    resolve_p, memRead_count, resolve_count]

/-- One family of memory shift forms: `f` and `out` may depend on the carry of the state, `g` is the result as a
number and `k` the bit moved out. -/
theorem shiftForms_complete (f : State → Byte → Byte) (g : Nat → Nat) {forms : List (Byte × Instr × Address)}
    {out : Byte → Bool} {k : Nat} (hrun : FormsRun forms (fun m s => shiftMemory m (f s) out s))
    (hout : ∀ v, out v = v.getLsbD k) {s : State} (hf : ∀ v, (f s v).toNat = g v.toNat) (hm : Memory.wf s.mem = true) :
    ∀ e ∈ forms,
      let ea := e.2.2.resolve s
      let old := memRead ea.1 ea.2
      opcodeOf e.2.1 = some e.1 ∧ ∃ t, exec e.2.1 s = .next t ∧
        (Memory.get t.mem ea.1.toNat).toNat = g old.1.toNat ∧ SameMemoryBut [ea.1.toNat] s t ∧
        t.sink = sinkAfter ea.1 (Memory.get t.mem ea.1.toNat) s ∧
        t.p.getLsbD 0 = old.1.getLsbD k ∧ NZOf (Memory.get t.mem ea.1.toNat) t.p ∧
        SameBitsBut [0, 1, 7] s.p t.p ∧
        t = { old.2 with mem := t.mem, sink := t.sink, p := t.p, count := s.count + 1 } := by
  intro e he
  obtain ⟨hop, hexec⟩ := hrun e he
  obtain ⟨hcell, hothers, hsink⟩ := modify_wroteByte hm e.2.2 (f s)
  refine ⟨hop, _, (hexec s).trans (shiftMemory_eq e.2.2 (f s) out s), ?_, hothers, ?_,
    (shiftBits_carry _ _ _).trans (hout _), ?_, shiftBits_sameBitsBut _ _ _, rfl⟩
  · exact hcell ▸ hf _
  · exact hcell.symm ▸ hsink
  · exact hcell.symm ▸ nzBits_NZOf _ _

/-- Settles O42: the four families by `shiftForms_complete`, the results as numbers as for the accumulator. -/
theorem shiftMemoryCompletes : Obligations.ShiftMemoryCompletes := by
  intro b w s hm
  simp only [List.forall_mem_cons, List.not_mem_nil, false_imp_iff, implies_true, and_true]
  exact ⟨shiftForms_complete (fun _ => shiftLeft) (fun v => 2 * v % 256) (aslForms_run b w) (fun _ => rfl)
      shiftLeft_toNat hm,
    shiftForms_complete (fun _ => shiftRight) (fun v => v / 2) (lsrForms_run b w) (fun _ => rfl) shiftRight_toNat hm,
    shiftForms_complete (fun s => rotateLeft s.flagC) (fun v => (2 * v + carryIn s) % 256) (rolForms_run b w)
      (fun _ => rfl) (rotateLeft_flagC_toNat s) hm,
    shiftForms_complete (fun s => rotateRight s.flagC) (fun v => v / 2 + 128 * carryIn s) (rorForms_run b w)
      (fun _ => rfl) (rotateRight_flagC_toNat s) hm⟩

/-! ## Flag instructions and NOP -/

/-- `setFlag` of bit `n` leaves the other bits. -/
theorem setFlag_sameBitsBut {mask : Byte} {n : Nat} (hmask : mask = BitVec.twoPow 8 n) (hn : n < 8) (b : Bool)
    (p : Byte) : SameBitsBut [n] p (setFlag mask b p) := by
  subst hmask
  exact fun k hk => (getLsbD_setFlag n hn b p k).trans (if_neg fun e => hk (List.mem_singleton.mpr e))

/-- An instruction that writes bit `n` of P alone (R224 to R230). -/
theorem complete_setFlag {mask : Byte} {n : Nat} (hmask : mask = BitVec.twoPow 8 n) (hn : n < 8) (b : Bool)
    (s : State) : ∃ t, complete (s.setFlag mask b) = .next t ∧ t.p.getLsbD n = b ∧ SameBitsBut [n] s.p t.p ∧
      t = { s with p := t.p, count := s.count + 1 } := by
  refine ⟨_, rfl, ?_, setFlag_sameBitsBut hmask hn b s.p, rfl⟩
  subst hmask
  exact (getLsbD_setFlag n hn b s.p n).trans (if_pos rfl)

/-- Settles O52: seven instances of `complete_setFlag`. -/
theorem flagInstructionsAndNopComplete : Obligations.FlagInstructionsAndNopComplete := by
  intro s
  refine ⟨?_, rfl, rfl⟩
  simp only [List.forall_mem_cons, List.not_mem_nil, false_imp_iff, implies_true, and_true]
  exact ⟨⟨rfl, complete_setFlag maskC_eq (by decide) false s⟩, ⟨rfl, complete_setFlag maskC_eq (by decide) true s⟩,
    ⟨rfl, complete_setFlag maskD_eq (by decide) false s⟩, ⟨rfl, complete_setFlag maskD_eq (by decide) true s⟩,
    ⟨rfl, complete_setFlag maskI_eq (by decide) false s⟩, ⟨rfl, complete_setFlag maskI_eq (by decide) true s⟩,
    ⟨rfl, complete_setFlag maskV_eq (by decide) false s⟩⟩

end Sys2Proof.Proofs
end

section
/-! PROOFS. 40_execution_and_addressing.md section 4: Push and Pop (R118 to R120) by the number SP, the cells they
touch, and last in first out (95_test_vectors.md Q3). -/

namespace Sys2Proof.Proofs

open Sys2Proof Sys2Proof.Machine Sys2Proof.Safety

/-! ## Push and Pop by the number SP -/

theorem push_overflow {s : State} (h : s.sp.toNat = 0) (v : Byte) : push v s = .raise .stackOverflow s := by
  obtain ⟨-, hpush⟩ | ⟨hsp, -⟩ := push_cases v s
  · exact hpush
  · exact absurd (BitVec.eq_of_toNat_eq h) hsp

theorem push_ok {s : State} (h : s.sp.toNat ≠ 0) (v : Byte) : push v s =
    .ok () { s with sp := s.sp - 1, mem := Memory.set s.mem (0x100 + s.sp.toNat - 1) v } := by
  obtain ⟨hsp, -⟩ | ⟨-, hpush⟩ := push_cases v s
  · exact absurd (congrArg BitVec.toNat hsp) h
  · have haddr : (stackAddr (s.sp - 1)).toNat = 0x100 + s.sp.toNat - 1 := by
      rw [stackAddr_toNat]
      bv_omega
    rw [hpush, haddr]

theorem pop_underflow {s : State} (h : s.sp.toNat = 0xFF) : pop s = .raise .stackUnderflow s := by
  obtain ⟨-, hpop⟩ | ⟨hsp, -⟩ := pop_cases s
  · exact hpop
  · exact absurd (BitVec.eq_of_toNat_eq h) hsp

theorem pop_ok {s : State} (h : s.sp.toNat ≠ 0xFF) :
    pop s = .ok (Memory.get s.mem (0x100 + s.sp.toNat)) { s with sp := s.sp + 1 } := by
  obtain ⟨hsp, -⟩ | ⟨-, hpop⟩ := pop_cases s
  · exact absurd (congrArg BitVec.toNat hsp) h
  · rw [hpop, stackAddr_toNat]

/-- The memory after a word is pushed under the stack pointer `sp`, high byte above low byte (R202). -/
def pushedWord (m : List Host.Cell) (sp : Nat) (w : Word) : List Host.Cell :=
  Memory.set (Memory.set m (0x100 + sp - 1) (highByte w)) (0x100 + sp - 2) (lowByte w)

theorem pushWord_ok {s : State} (h : 2 ≤ s.sp.toNat) (w : Word) :
    pushWord w s = .ok () { s with sp := s.sp - 2, mem := pushedWord s.mem s.sp.toNat w } := by
  obtain ⟨hsp, -⟩ | ⟨hsp, -⟩ | ⟨-, hpush⟩ := pushWord_cases w s
  · rw [hsp] at h
    exact absurd h (by decide)
  · rw [hsp] at h
    exact absurd h (by decide)
  · exact hpush

/-- With room for one byte only, the high byte is pushed and the low byte finds the stack full (D13). -/
theorem pushWord_overflow_second {s : State} (h : s.sp.toNat = 1) (w : Word) : pushWord w s =
    .raise .stackOverflow { s with sp := 0, mem := Memory.set s.mem 0x100 (highByte w) } := by
  obtain ⟨hsp, -⟩ | ⟨-, hpush⟩ | ⟨hsp, -⟩ := pushWord_cases w s
  · rw [hsp] at h
    exact absurd h (by decide)
  · exact hpush
  · omega

theorem pushWord_overflow {s : State} (h : s.sp.toNat = 0) (w : Word) :
    pushWord w s = .raise .stackOverflow s := by
  rw [pushWord, push_overflow h, Res.andThen_raise]

theorem popWord_ok {s : State} (h : s.sp.toNat ≤ 0xFD) : popWord s =
    .ok (wordOf (Memory.get s.mem (0x100 + s.sp.toNat)) (Memory.get s.mem (0x101 + s.sp.toNat)))
      { s with sp := s.sp + 2 } := by
  obtain ⟨hsp, -⟩ | ⟨hsp, -⟩ | ⟨-, hpop⟩ := popWord_cases s
  · rw [hsp] at h
    exact absurd h (by decide)
  · rw [hsp] at h
    exact absurd h (by decide)
  · exact hpop

/-- With fewer than two bytes on the stack, popping a word raises and leaves the stack empty (D13). -/
theorem popWord_underflow {s : State} (h : 0xFE ≤ s.sp.toNat) :
    popWord s = .raise .stackUnderflow { s with sp := 0xFF } := by
  obtain ⟨hsp, hpop⟩ | ⟨-, hpop⟩ | ⟨hsp, -⟩ := popWord_cases s
  · have hempty : s.sp = 0xFF := hsp
    rw [hpop, ← hempty]
  · exact hpop
  · omega

/-! ## The cells a push writes -/

/-- A write below 65536 keeps the canonical form. -/
theorem wf_set_of_lt {m : List Host.Cell} (hm : Memory.wf m = true) {a : Nat} (ha : a < 65536) (v : Byte) :
    Memory.wf (Memory.set m a v) = true := Memory.wfFrom_set hm ha (Nat.zero_le a) v

/-- A write of a stack cell keeps the canonical form. -/
theorem wf_set_stack {m : List Host.Cell} (hm : Memory.wf m = true) (sp : Byte) (n : Nat) (v : Byte) :
    Memory.wf (Memory.set m (0x100 + sp.toNat - n) v) = true := by
  have := sp.isLt
  exact wf_set_of_lt hm (by omega) v

theorem pushedWord_wf {m : List Host.Cell} (hm : Memory.wf m = true) (sp : Byte) (w : Word) :
    Memory.wf (pushedWord m sp.toNat w) = true := wf_set_stack (wf_set_stack hm sp 1 _) sp 2 _

theorem get_pushedWord_high {m : List Host.Cell} (hm : Memory.wf m = true) (sp : Nat) (w : Word) :
    Memory.get (pushedWord m sp w) (0x100 + sp - 1) = highByte w :=
  (Memory.get_set_ne (by omega) _ _).trans (Memory.get_set_same hm _)

theorem get_pushedWord_low {m : List Host.Cell} (hm : Memory.wf m = true) (sp : Byte) (w : Word) :
    Memory.get (pushedWord m sp.toNat w) (0x100 + sp.toNat - 2) = lowByte w :=
  Memory.get_set_same (wf_set_stack hm sp 1 _) _

theorem get_pushedWord_other {sp a : Nat} (h1 : a ≠ 0x100 + sp - 1) (h2 : a ≠ 0x100 + sp - 2)
    (m : List Host.Cell) (w : Word) : Memory.get (pushedWord m sp w) a = Memory.get m a :=
  (Memory.get_set_ne h2 _ _).trans (Memory.get_set_ne h1 _ _)

/-! ## Push and Pop as the rules state them -/

/-- Settles O48: by the test of SP in Push and the address of the cell (`stackAddr_toNat`). -/
theorem pushStoresBelowSp : Obligations.PushStoresBelowSp := by
  intro v s
  refine ⟨fun h => push_overflow h v, fun h => ⟨stackAddr (s.sp - 1), ?_, ?_⟩⟩
  · show _ = 0x100 + _
    rw [stackAddr_toNat]
    bv_omega
  · exact if_neg fun hsp => h (congrArg BitVec.toNat hsp)

/-- `popAll` may as well pop the last byte last. -/
theorem popAll_succ (n : Nat) (s : State) : popAll (n + 1) s =
    (popAll n s).andThen fun bs s1 => (pop s1).andThen fun b s2 => .ok (bs ++ [b]) s2 := by
  induction n generalizing s with
  | zero => rfl
  | succ n ih =>
    rw [popAll]
    conv_rhs => rw [popAll]
    cases pop s with
    | raise f s1 => rfl
    | ok b s1 =>
      simp only [Res.andThen_ok, ih]
      cases popAll n s1 with
      | raise f s2 => rfl
      | ok bs s2 =>
        simp only [Res.andThen_ok]
        cases pop s2 <;> rfl

/-- Popping as many bytes as were pushed gives them back in reverse order (Q3). -/
theorem popAll_pushAll {bs : List Byte} {s : State} (hm : Memory.wf s.mem = true) (hlen : bs.length ≤ s.sp.toNat) :
    ∃ t, pushAll bs s = .ok () t ∧ t.sp.toNat = s.sp.toNat - bs.length ∧
      (∀ a, (a < 0x100 + t.sp.toNat ∨ 0x100 + s.sp.toNat ≤ a) → Memory.get t.mem a = Memory.get s.mem a) ∧
      popAll bs.length t = .ok bs.reverse { t with sp := s.sp } := by
  induction bs generalizing s with
  | nil => exact ⟨s, rfl, rfl, fun _ _ => rfl, rfl⟩
  | cons b bs ih =>
    rw [List.length_cons] at hlen
    have hsp : s.sp.toNat ≠ 0 := by omega
    have hsp1 : (s.sp - 1).toNat = s.sp.toNat - 1 := by bv_omega
    obtain ⟨t, hpush, htsp, hframe, hpop⟩ := ih
      (s := { s with sp := s.sp - 1, mem := Memory.set s.mem (0x100 + s.sp.toNat - 1) b }) (wf_set_stack hm s.sp 1 b)
      (by simp only [hsp1]; omega)
    simp only [hsp1] at htsp hframe hpop
    have htop : Memory.get t.mem (0x100 + (s.sp - 1).toNat) = b := by
      rw [hframe _ (by omega), hsp1, ← Nat.add_sub_assoc (by omega), Memory.get_set_same hm]
    have hpop1 : pop { t with sp := s.sp - 1 } = .ok b { t with sp := s.sp } := by
      rw [pop_ok (s := { t with sp := s.sp - 1 }) (by simp only; omega), htop, BitVec.sub_add_cancel]
    refine ⟨t, by rw [pushAll, push_ok hsp, Res.andThen_ok, hpush], by rw [List.length_cons]; omega, fun a ha => ?_, ?_⟩
    · exact (hframe a (by omega)).trans (Memory.get_set_ne (by omega) b s.mem)
    · rw [List.length_cons, popAll_succ, hpop, Res.andThen_ok, hpop1, Res.andThen_ok, List.reverse_cons]

/-- Settles O49: Pop by its test of SP, the rest by `popAll_pushAll`. -/
theorem popAndLastInFirstOut : Obligations.PopAndLastInFirstOut := by
  refine ⟨fun s => ⟨fun h => if_pos h, fun h => ⟨stackAddr s.sp, stackAddr_toNat s.sp, ?_⟩⟩, fun bs s hm hlen => ?_⟩
  · exact if_neg (Nat.not_le.mpr h)
  · exact popAll_pushAll hm hlen

end Sys2Proof.Proofs
end

section
/-! PROOFS. 44_control_flow.md: jumps, branches, JSR and RTS (R200 to R211); 45_stack_flags_system.md: the stack
instructions, BRK and RTI (R220 to R223, R232, R233); 60_exceptions.md R246. -/

namespace Sys2Proof.Proofs

open Sys2Proof Sys2Proof.Machine Sys2Proof.Safety

/-! ## Jumps and branches -/

/-- Settles O43: the two meanings, with `readWord` leaving the counter. -/
theorem jumpsComplete : Obligations.JumpsComplete := by
  intro w s
  refine ⟨rfl, rfl, rfl, ?_⟩
  calc exec (.jmpIndirect w) s = complete { (readWord w s).2 with pc := (readWord w s).1 } := rfl
    _ = _ := by rw [complete, readWord_count]

/-- A branch whose condition is that `bit` has the value `want` (44_control_flow.md section 3). -/
theorem branch_completes {cond bit want : Bool} (hcond : cond = true ↔ bit = want) (off : Byte) (s : State) :
    ∃ t, branch cond off s = .next t ∧
      (bit = want → (t.pc.toNat : Int) = ((s.pc.toNat : Int) + off.toInt) % 65536) ∧
      (bit ≠ want → t.pc = s.pc) ∧ t = { s with pc := t.pc, count := s.count + 1 } := by
  unfold branch
  cases hc : cond with
  | true => exact ⟨_, rfl, fun _ => branchTarget_toNat s.pc off, fun h => absurd (hcond.mp hc) h, rfl⟩
  | false => exact ⟨_, rfl, fun h => absurd (hcond.mpr h) (Bool.eq_false_iff.mp hc), fun _ => rfl, rfl⟩

/-- A flag tested for being set, and for being clear. -/
theorem flag_set_iff {flag bit : Bool} (h : flag = bit) : flag = true ↔ bit = true := by rw [h]

theorem flag_clear_iff {flag bit : Bool} (h : flag = bit) : (!flag) = true ↔ bit = false := by
  rw [h, Bool.not_eq_true']

/-- Settles O44: eight instances of `branch_completes`, each flag being its bit of P. -/
theorem branchesComplete : Obligations.BranchesComplete := by
  intro off s
  simp only [List.forall_mem_cons, List.not_mem_nil, false_imp_iff, implies_true, and_true]
  exact ⟨⟨rfl, branch_completes (flag_clear_iff (flagC_eq s)) off s⟩,
    ⟨rfl, branch_completes (flag_set_iff (flagC_eq s)) off s⟩,
    ⟨rfl, branch_completes (flag_set_iff (flagZ_eq s)) off s⟩,
    ⟨rfl, branch_completes (flag_clear_iff (flagZ_eq s)) off s⟩,
    ⟨rfl, branch_completes (flag_set_iff (flagN_eq s)) off s⟩,
    ⟨rfl, branch_completes (flag_clear_iff (flagN_eq s)) off s⟩,
    ⟨rfl, branch_completes (flag_clear_iff (flagV_eq s)) off s⟩,
    ⟨rfl, branch_completes (flag_set_iff (flagV_eq s)) off s⟩⟩

/-! ## The stack instructions within their bounds -/

/-- An instruction ends as its continuation does, once its first part has gone on. -/
theorem finish_andThen_ok {α : Type} {r : Res α} {v : α} {s : State} (h : r = .ok v s) (k : α → State → Res Unit) :
    finish (r.andThen k) = finish (k v s) := by rw [h, Res.andThen_ok]

/-- An instruction whose first part raises ends in Halt of the state reached. -/
theorem finish_andThen_raise {α : Type} {r : Res α} {f : Fault} {s : State} (h : r = .raise f s)
    (k : α → State → Res Unit) : finish (r.andThen k) = .next (halt f s) := by rw [h, Res.andThen_raise, finish_raise]

theorem exec_pha {s : State} (h : s.sp.toNat ≠ 0) : exec .pha s = .next { s with
    mem := Memory.set s.mem (0x100 + s.sp.toNat - 1) s.a, sp := s.sp - 1, count := s.count + 1 } :=
  congrArg finish (push_ok h s.a)

theorem exec_php {s : State} (h : s.sp.toNat ≠ 0) : exec .php s = .next { s with
    mem := Memory.set s.mem (0x100 + s.sp.toNat - 1) s.p, sp := s.sp - 1, count := s.count + 1 } :=
  congrArg finish (push_ok h s.p)

theorem exec_pla {s : State} (h : s.sp.toNat ≠ 0xFF) :
    let v := Memory.get s.mem (0x100 + s.sp.toNat)
    exec .pla s = .next { s with a := v, p := nzBits v s.p, sp := s.sp + 1, count := s.count + 1 } :=
  finish_andThen_ok (pop_ok h) _

theorem exec_plp {s : State} (h : s.sp.toNat ≠ 0xFF) : exec .plp s = .next { s with
    p := Memory.get s.mem (0x100 + s.sp.toNat), sp := s.sp + 1, count := s.count + 1 } :=
  finish_andThen_ok (pop_ok h) _

theorem exec_jsr {s : State} (h : 2 ≤ s.sp.toNat) (w : Word) : exec (.jsr w) s = .next { s with
    mem := pushedWord s.mem s.sp.toNat (s.pc - 1), sp := s.sp - 2, pc := w, count := s.count + 1 } :=
  finish_andThen_ok (pushWord_ok h (s.pc - 1)) _

theorem exec_rts {s : State} (h : s.sp.toNat ≤ 0xFD) : exec .rts s = .next { s with
    pc := wordOf (Memory.get s.mem (0x100 + s.sp.toNat)) (Memory.get s.mem (0x101 + s.sp.toNat)) + 1
    sp := s.sp + 2, count := s.count + 1 } :=
  finish_andThen_ok (popWord_ok h) _

/-- The word at BRK_VECTOR, neither byte of which can be the tap (decision D16). -/
theorem readWord_brkVector (s : State) : readWord Config.brkVector s =
    (wordOf (Memory.get s.mem 0xFFFE) (Memory.get s.mem 0xFFFF), s) :=
  readWord_stored (isTap_of_le (by decide) s) (isTap_of_le (by decide) s)

/-- The memory after BRK: the return address under the stack pointer, then P with bit 4 set (R232). -/
def brkMemory (s : State) : List Host.Cell :=
  Memory.set (pushedWord s.mem s.sp.toNat (s.pc + 1)) (0x100 + s.sp.toNat - 3) (s.p ||| maskB)

theorem get_brkMemory_other {s : State} {a : Nat} (h1 : a ≠ 0x100 + s.sp.toNat - 1) (h2 : a ≠ 0x100 + s.sp.toNat - 2)
    (h3 : a ≠ 0x100 + s.sp.toNat - 3) : Memory.get (brkMemory s) a = Memory.get s.mem a :=
  (Memory.get_set_ne h3 _ _).trans (get_pushedWord_other h1 h2 _ _)

theorem get_brkMemory_high {s : State} (hm : Memory.wf s.mem = true) :
    Memory.get (brkMemory s) (0x100 + s.sp.toNat - 1) = highByte (s.pc + 1) :=
  (Memory.get_set_ne (by omega) _ _).trans (get_pushedWord_high hm _ _)

theorem get_brkMemory_low {s : State} (hm : Memory.wf s.mem = true) :
    Memory.get (brkMemory s) (0x100 + s.sp.toNat - 2) = lowByte (s.pc + 1) :=
  (Memory.get_set_ne (by omega) _ _).trans (get_pushedWord_low hm _ _)

theorem get_brkMemory_status {s : State} (hm : Memory.wf s.mem = true) :
    Memory.get (brkMemory s) (0x100 + s.sp.toNat - 3) = s.p ||| maskB :=
  Memory.get_set_same (pushedWord_wf hm s.sp _) _

/-- The status byte BRK pushes: bit 4 set, the others as stored (D15). -/
theorem getLsbD_or_maskB (p : Byte) (k : Nat) : (p ||| maskB).getLsbD k = (decide (k = 4) || p.getLsbD k) := by
  have hset : p ||| maskB = setFlag maskB true p := rfl
  rw [hset, maskB_eq, getLsbD_setFlag 4 (by decide)]
  by_cases hk : k = 4
  · rw [if_pos hk, decide_eq_true hk, Bool.true_or]
  · rw [if_neg hk, decide_eq_false hk, Bool.false_or]

theorem exec_brk {s : State} (h : 3 ≤ s.sp.toNat) : exec .brk s = .next { s with
    mem := brkMemory s, sp := s.sp - 3, p := setFlag maskI true s.p
    pc := wordOf (Memory.get s.mem 0xFFFE) (Memory.get s.mem 0xFFFF), count := s.count + 1 } := by
  have hsp := s.sp.isLt
  have hsp2 : (s.sp - 2).toNat = s.sp.toNat - 2 := by bv_omega
  have hsp3 : s.sp - 2 - 1 = s.sp - 3 := by bv_omega
  have hcell : 0x100 + (s.sp.toNat - 2) - 1 = 0x100 + s.sp.toNat - 3 := by omega
  have hlow : Memory.get (brkMemory s) 0xFFFE = Memory.get s.mem 0xFFFE :=
    get_brkMemory_other (by omega) (by omega) (by omega)
  have hhigh : Memory.get (brkMemory s) 0xFFFF = Memory.get s.mem 0xFFFF :=
    get_brkMemory_other (by omega) (by omega) (by omega)
  have hpush := push_ok (s := { s with sp := s.sp - 2, mem := pushedWord s.mem s.sp.toNat (s.pc + 1) })
    (by simp only [hsp2]; omega) (s.p ||| maskB)
  simp only [hsp2, hsp3, hcell] at hpush
  calc exec .brk s = finish (softwareBreak s) := rfl
    _ = complete { s with
          mem := brkMemory s, sp := s.sp - 3, p := setFlag maskI true s.p
          pc := wordOf (Memory.get (brkMemory s) 0xFFFE) (Memory.get (brkMemory s) 0xFFFF) } := by
        rw [softwareBreak, finish_andThen_ok (pushWord_ok (Nat.le_of_succ_le h) _), finish_andThen_ok hpush,
          readWord_brkVector]
        rfl
    _ = _ := by rw [hlow, hhigh]; rfl

theorem exec_rti {s : State} (h : s.sp.toNat ≤ 0xFC) : exec .rti s = .next { s with
    p := Memory.get s.mem (0x100 + s.sp.toNat)
    pc := wordOf (Memory.get s.mem (0x101 + s.sp.toNat)) (Memory.get s.mem (0x102 + s.sp.toNat))
    sp := s.sp + 3, count := s.count + 1 } := by
  have hsp1 : (s.sp + 1).toNat = s.sp.toNat + 1 := by bv_omega
  have hsp3 : s.sp + 1 + 2 = s.sp + 3 := by bv_omega
  have hcell1 : 0x100 + (s.sp.toNat + 1) = 0x101 + s.sp.toNat := by omega
  have hcell2 : 0x101 + (s.sp.toNat + 1) = 0x102 + s.sp.toNat := by omega
  have hpop := popWord_ok (s := { s with sp := s.sp + 1 }) (by simp only [hsp1]; omega)
  simp only [hsp1, hsp3, hcell1, hcell2] at hpop
  calc exec .rti s = finish (softwareReturn s) := rfl
    _ = _ := by
      rw [softwareReturn, finish_andThen_ok (pop_ok (by omega)), finish_andThen_ok hpop]
      rfl

/-! ## The stack instructions as the rules state them -/

/-- One push instruction with room for its byte `v`. -/
theorem push_instruction_completes {s : State} (hm : Memory.wf s.mem = true) {o : Host.Outcome State Fault Refusal}
    {v : Byte} (ho : o = .next { s with
      mem := Memory.set s.mem (0x100 + s.sp.toNat - 1) v, sp := s.sp - 1, count := s.count + 1 }) :
    ∃ t, o = .next t ∧ Memory.get t.mem (0x100 + s.sp.toNat - 1) = v ∧ SameMemoryBut [0x100 + s.sp.toNat - 1] s t ∧
      t = { s with mem := t.mem, sp := s.sp - 1, count := s.count + 1 } :=
  ⟨_, ho, Memory.get_set_same hm v, fun _ ha => Memory.get_set_ne (List.ne_of_not_mem_cons ha) v s.mem, rfl⟩

/-- Settles O50: both push one byte (`exec_pha`, `exec_php`). -/
theorem pushInstructionsComplete : Obligations.PushInstructionsComplete := by
  intro s hm h
  simp only [List.forall_mem_cons, List.not_mem_nil, false_imp_iff, implies_true, and_true]
  exact ⟨⟨rfl, push_instruction_completes hm (exec_pha h)⟩, ⟨rfl, push_instruction_completes hm (exec_php h)⟩⟩

/-- Settles O51: both pop one byte (`exec_pla`, `exec_plp`). -/
theorem pullInstructionsComplete : Obligations.PullInstructionsComplete := fun _ h =>
  ⟨rfl, rfl, ⟨_, exec_pla h, nzBits_NZOf _ _, nzBits_sameBitsBut _ _, rfl⟩, exec_plp h⟩

/-- Settles O45: the cells of the pushed word. -/
theorem jsrCompletes : Obligations.JsrCompletes := by
  intro w s hm h
  refine ⟨rfl, _, exec_jsr h w, ?_, ?_, fun a ha => ?_, rfl⟩
  · exact (congrArg BitVec.toNat (get_pushedWord_high hm _ _)).trans (highByte_toNat _)
  · exact (congrArg BitVec.toNat (get_pushedWord_low hm _ _)).trans (lowByte_toNat _)
  · simp only [List.mem_cons, List.not_mem_nil, or_false, not_or] at ha
    exact get_pushedWord_other ha.1 ha.2 _ _

/-- Settles O46: the popped word as a number (`wordOf_toNat`), plus one. -/
theorem rtsCompletes : Obligations.RtsCompletes := by
  intro s h
  refine ⟨rfl, _, exec_rts h, ?_, rfl⟩
  exact (BitVec.toNat_add _ 1).trans (by rw [wordOf_toNat]; rfl)

/-- Settles O53: the three pushed cells by the lemmas of `brkMemory`, I by the flag lemmas, PC from the vector. -/
theorem brkCompletes : Obligations.BrkCompletes := by
  intro s hm h
  refine ⟨rfl, _, exec_brk h, ?_, ?_, fun k _ => ?_, fun a ha => ?_, getLsbD_setFlag_I true s.p 2, fun k hk => ?_,
    wordOf_toNat _ _, rfl⟩
  · exact (congrArg BitVec.toNat (get_brkMemory_high hm)).trans (highByte_toNat _)
  · exact (congrArg BitVec.toNat (get_brkMemory_low hm)).trans (lowByte_toNat _)
  · exact (congrArg (BitVec.getLsbD · k) (get_brkMemory_status hm)).trans (getLsbD_or_maskB s.p k)
  · simp only [List.mem_cons, List.not_mem_nil, or_false, not_or] at ha
    obtain ⟨h1, h2, h3⟩ := ha
    exact get_brkMemory_other h1 h2 h3
  · exact (getLsbD_setFlag_I true s.p k).trans (if_neg (List.ne_of_not_mem_cons hk))

/-- Settles O54: the popped word as a number. -/
theorem rtiCompletes : Obligations.RtiCompletes := fun _ h => ⟨rfl, _, exec_rti h, wordOf_toNat _ _, rfl⟩

/-! ## Returns after calls -/

/-- An RTS that finds what a JSR left returns to the instruction after it (Q8). -/
theorem rts_after_jsr {w : Word} {s t v u : State} (hm : Memory.wf s.mem = true) (hsp : v.sp = t.sp)
    (hcells : ∀ a, 0x100 + t.sp.toNat ≤ a → a < 0x100 + s.sp.toNat → Memory.get v.mem a = Memory.get t.mem a)
    (h2 : 2 ≤ s.sp.toNat) (hjsr : exec (.jsr w) s = .next t) (hrts : exec .rts v = .next u) :
    u.pc = s.pc ∧ u.sp = s.sp ∧ u.p = v.p := by
  obtain rfl := Host.Outcome.next.inj ((exec_jsr h2 w).symm.trans hjsr)
  have hlt := s.sp.isLt
  have hvsp : v.sp.toNat = s.sp.toNat - 2 := by
    rw [hsp]
    simp only
    bv_omega
  obtain rfl := Host.Outcome.next.inj ((exec_rts (by omega)).symm.trans hrts)
  have hlow : Memory.get v.mem (0x100 + v.sp.toNat) = lowByte (s.pc - 1) := by
    rw [hcells _ (by rw [hsp]) (by omega), show 0x100 + v.sp.toNat = 0x100 + s.sp.toNat - 2 by omega,
      get_pushedWord_low hm]
  have hhigh : Memory.get v.mem (0x101 + v.sp.toNat) = highByte (s.pc - 1) := by
    rw [hcells _ (by rw [hsp]; omega) (by omega), show 0x101 + v.sp.toNat = 0x100 + s.sp.toNat - 1 by omega,
      get_pushedWord_high hm]
  refine ⟨?_, ?_, rfl⟩
  · show wordOf _ _ + 1 = s.pc
    rw [hlow, hhigh, wordOf_bytes, BitVec.sub_add_cancel]
  · show v.sp + 2 = s.sp
    rw [hsp]
    exact BitVec.sub_add_cancel s.sp 2

/-- An RTI that finds what a BRK left returns two bytes after it, with bit 4 of P set (Q8, D15, D16). -/
theorem rti_after_brk {s t v u : State} (hm : Memory.wf s.mem = true) (hsp : v.sp = t.sp)
    (hcells : ∀ a, 0x100 + t.sp.toNat ≤ a → a < 0x100 + s.sp.toNat → Memory.get v.mem a = Memory.get t.mem a)
    (h3 : 3 ≤ s.sp.toNat) (hbrk : exec .brk s = .next t) (hrti : exec .rti v = .next u) :
    u.pc = s.pc + 1 ∧ u.sp = s.sp ∧ ∀ k, k < 8 → u.p.getLsbD k = (decide (k = 4) || s.p.getLsbD k) := by
  obtain rfl := Host.Outcome.next.inj ((exec_brk h3).symm.trans hbrk)
  have hlt := s.sp.isLt
  have hvsp : v.sp.toNat = s.sp.toNat - 3 := by
    rw [hsp]
    simp only
    bv_omega
  obtain rfl := Host.Outcome.next.inj ((exec_rti (by omega)).symm.trans hrti)
  have hstatus : Memory.get v.mem (0x100 + v.sp.toNat) = s.p ||| maskB := by
    rw [hcells _ (by rw [hsp]) (by omega), show 0x100 + v.sp.toNat = 0x100 + s.sp.toNat - 3 by omega,
      get_brkMemory_status hm]
  have hlow : Memory.get v.mem (0x101 + v.sp.toNat) = lowByte (s.pc + 1) := by
    rw [hcells _ (by rw [hsp]; omega) (by omega), show 0x101 + v.sp.toNat = 0x100 + s.sp.toNat - 2 by omega,
      get_brkMemory_low hm]
  have hhigh : Memory.get v.mem (0x102 + v.sp.toNat) = highByte (s.pc + 1) := by
    rw [hcells _ (by rw [hsp]; omega) (by omega), show 0x102 + v.sp.toNat = 0x100 + s.sp.toNat - 1 by omega,
      get_brkMemory_high hm]
  refine ⟨?_, ?_, fun k _ => ?_⟩
  · show wordOf _ _ = s.pc + 1
    rw [hlow, hhigh, wordOf_bytes]
  · show v.sp + 3 = s.sp
    rw [hsp]
    exact BitVec.sub_add_cancel s.sp 3
  · exact (congrArg (BitVec.getLsbD · k) hstatus).trans (getLsbD_or_maskB s.p k)

/-- Settles O47: `rts_after_jsr` and `rti_after_brk`. -/
theorem returnsUndoCalls : Obligations.ReturnsUndoCalls := fun _ _ _ _ _ hm hsp hcells =>
  ⟨rts_after_jsr hm hsp hcells, rti_after_brk hm hsp hcells⟩

/-! ## Stack faults -/

/-- With room for one byte, a pushed word leaves its high byte and SP at 0 (R246, D13). -/
theorem word_push_overflow {s : State} (hm : Memory.wf s.mem = true) (h : s.sp.toNat = 1) {w : Word}
    {k : Unit → State → Res Unit} : ∃ u, finish ((pushWord w s).andThen k) = .next (halt .stackOverflow u) ∧
      (Memory.get u.mem 0x100).toNat = w.toNat / 256 ∧ SameMemoryBut [0x100] s u ∧
      u = { s with mem := u.mem, sp := 0 } := by
  refine ⟨_, finish_andThen_raise (pushWord_overflow_second h w) k, ?_, fun a ha => ?_, rfl⟩
  · exact (congrArg BitVec.toNat (Memory.get_set_same hm _)).trans (highByte_toNat w)
  · exact Memory.get_set_ne (List.ne_of_not_mem_cons ha) _ s.mem

/-- With room for two bytes, BRK leaves the return address pushed and SP at 0 (R246, D13). -/
theorem brk_status_overflow {s : State} (hm : Memory.wf s.mem = true) (h : s.sp.toNat = 2) :
    ∃ u, exec .brk s = .next (halt .stackOverflow u) ∧
      (Memory.get u.mem 0x101).toNat = (s.pc + 1).toNat / 256 ∧
      (Memory.get u.mem 0x100).toNat = (s.pc + 1).toNat % 256 ∧ SameMemoryBut [0x100, 0x101] s u ∧
      u = { s with mem := u.mem, sp := 0 } := by
  have hsp : s.sp - 2 = 0 := by bv_omega
  have hpush := pushWord_ok (Nat.le_of_eq h.symm) (s.pc + 1)
  have hhigh := get_pushedWord_high hm s.sp.toNat (s.pc + 1)
  have hlow := get_pushedWord_low hm s.sp (s.pc + 1)
  rw [h] at hhigh hlow
  rw [hsp, h] at hpush
  refine ⟨{ s with sp := 0, mem := pushedWord s.mem 2 (s.pc + 1) }, ?_, ?_, ?_, fun a ha => ?_, rfl⟩
  · calc exec .brk s = finish (softwareBreak s) := rfl
      _ = _ := by
        rw [softwareBreak, finish_andThen_ok hpush]
        exact finish_andThen_raise (push_overflow rfl _) _
  · exact (congrArg BitVec.toNat hhigh).trans (highByte_toNat _)
  · exact (congrArg BitVec.toNat hlow).trans (lowByte_toNat _)
  · simp only [List.mem_cons, List.not_mem_nil, or_false, not_or] at ha
    exact get_pushedWord_other ha.2 ha.1 _ _

/-- With fewer than three bytes on the stack, RTI leaves the stack empty and nothing else changed (R246, D13). -/
theorem rti_underflow {s : State} (h : 0xFD ≤ s.sp.toNat) :
    exec .rti s = .next (halt .stackUnderflow { s with sp := 0xFF }) := by
  by_cases hempty : s.sp.toNat = 0xFF
  · have hsp : s.sp = 0xFF := BitVec.eq_of_toNat_eq hempty
    rw [← hsp]
    exact finish_andThen_raise (pop_underflow hempty) _
  · have hnext : 0xFE ≤ (s.sp + 1).toNat := by bv_omega
    calc exec .rti s = finish (softwareReturn s) := rfl
      _ = _ := by
        rw [softwareReturn, finish_andThen_ok (pop_ok hempty)]
        exact finish_andThen_raise (popWord_underflow (s := { s with sp := s.sp + 1 }) hnext) _

/-- Settles O55: each instruction ends where its first failing push or pop does. -/
theorem stackFaultsKeepEarlierEffects : Obligations.StackFaultsKeepEarlierEffects := by
  intro w s hm
  simp only [List.forall_mem_cons, List.not_mem_nil, false_imp_iff, implies_true, and_true]
  refine ⟨fun h => ⟨?_, ?_, ?_, ?_⟩, fun h => ⟨word_push_overflow hm h, word_push_overflow hm h⟩,
    brk_status_overflow hm, fun h => ⟨?_, ?_⟩, fun h => ?_, rti_underflow⟩
  · exact congrArg finish (push_overflow h s.a)
  · exact congrArg finish (push_overflow h s.p)
  · exact finish_andThen_raise (pushWord_overflow h _) _
  · exact finish_andThen_raise (pushWord_overflow h _) _
  · exact finish_andThen_raise (pop_underflow h) _
  · exact finish_andThen_raise (pop_underflow h) _
  · exact finish_andThen_raise (popWord_underflow h) _

end Sys2Proof.Proofs
end

section
/-! PROOFS. 10_state.md R18 to R24, R30, R31 and the frame of memory: which parts of the state each instruction may
write, as one table by mnemonic, and that every instruction keeps to its row. -/

namespace Sys2Proof.Proofs

open Sys2Proof Sys2Proof.Machine Sys2Proof.Safety

/-! ## The table -/

/-- What the instructions of some mnemonics may write: registers, PC, memory, the sink trace, the bits of P by
number. `single` says that the row holds for mode Single only, or for every other mode only. -/
structure Row where
  mnemonics : List String
  a : Bool := false
  x : Bool := false
  y : Bool := false
  sp : Bool := false
  pc : Bool := false
  mem : Bool := false
  sink : Bool := false
  bits : List Nat := []
  single : Option Bool := none

def Row.accumulator : Row := { mnemonics := ["LDA", "TXA", "TYA"], a := true, bits := [1, 7] }
def Row.logic : Row := { mnemonics := ["AND", "ORA", "EOR"], a := true, bits := [1, 7] }
def Row.alu : Row := { mnemonics := ["ADC", "SBC"], a := true, bits := [0, 1, 6, 7] }
def Row.shiftAccumulator : Row :=
  { mnemonics := ["ASL", "LSR", "ROL", "ROR"], a := true, bits := [0, 1, 7], single := some true }
def Row.shiftMemory : Row :=
  { mnemonics := ["ASL", "LSR", "ROL", "ROR"], mem := true, sink := true, bits := [0, 1, 7], single := some false }
def Row.indexX : Row := { mnemonics := ["LDX", "TAX", "TSX", "INX", "DEX"], x := true, bits := [1, 7] }
def Row.indexY : Row := { mnemonics := ["LDY", "TAY", "INY", "DEY"], y := true, bits := [1, 7] }
def Row.store : Row := { mnemonics := ["STA", "STX", "STY"], mem := true, sink := true }
def Row.modify : Row := { mnemonics := ["INC", "DEC"], mem := true, sink := true, bits := [1, 7] }
def Row.compare : Row := { mnemonics := ["CMP", "CPX", "CPY"], bits := [0, 1, 7] }
def Row.bit : Row := { mnemonics := ["BIT"], bits := [1, 6, 7] }
def Row.flagC : Row := { mnemonics := ["SEC", "CLC"], bits := [0] }
def Row.flagI : Row := { mnemonics := ["SEI", "CLI"], bits := [2] }
def Row.flagD : Row := { mnemonics := ["SED", "CLD"], bits := [3] }
def Row.flagV : Row := { mnemonics := ["CLV"], bits := [6] }
def Row.idle : Row := { mnemonics := ["NOP", "???"] }
def Row.jump : Row := { mnemonics := ["JMP"], pc := true }
def Row.branch : Row := { mnemonics := ["BCC", "BCS", "BEQ", "BNE", "BMI", "BPL", "BVC", "BVS"], pc := true }
def Row.txs : Row := { mnemonics := ["TXS"], sp := true }
def Row.push : Row := { mnemonics := ["PHA", "PHP"], sp := true, mem := true }
def Row.pla : Row := { mnemonics := ["PLA"], a := true, sp := true, bits := [1, 7] }
def Row.plp : Row := { mnemonics := ["PLP"], sp := true, bits := [0, 1, 2, 3, 4, 5, 6, 7] }
def Row.jsr : Row := { mnemonics := ["JSR"], sp := true, pc := true, mem := true }
def Row.rts : Row := { mnemonics := ["RTS"], sp := true, pc := true }
def Row.brk : Row := { mnemonics := ["BRK"], sp := true, pc := true, mem := true, bits := [2] }
def Row.rti : Row := { mnemonics := ["RTI"], sp := true, pc := true, bits := [0, 1, 2, 3, 4, 5, 6, 7] }

/-- The table: one row for each kind of instruction, the mnemonics of R18 to R24 and R30 and of the stores and
pushes. -/
def rows : List Row :=
  [.accumulator, .logic, .alu, .shiftAccumulator, .shiftMemory, .indexX, .indexY, .store, .modify, .compare, .bit,
    .flagC, .flagI, .flagD, .flagV, .idle, .jump, .branch, .txs, .push, .pla, .plp, .jsr, .rts, .brk, .rti]

/-! ## Keeping to a row -/

/-- The parts of a state that the row does not write; the written ones, and those the table does not speak of, are
blanked. -/
def Row.untouched (w : Row) (s : State) : State :=
  { State.reset with
    a := if w.a then 0 else s.a
    x := if w.x then 0 else s.x
    y := if w.y then 0 else s.y
    sp := if w.sp then 0 else s.sp
    pc := if w.pc then 0 else s.pc
    mem := if w.mem then [] else s.mem
    sink := if w.sink then [] else s.sink }

/-- `t` differs from `s` only in what the row writes, and in the run state, the counter, the log and the draws. -/
structure Row.Keeps (w : Row) (s t : State) : Prop where
  parts : w.untouched t = w.untouched s
  bits : SameBitsBut w.bits s.p t.p

theorem sameBitsBut_refl (ks : List Nat) (p : Byte) : SameBitsBut ks p p := fun _ _ => rfl

/-- Every two bytes agree outside their eight bits. -/
theorem sameBitsBut_all (p q : Byte) : SameBitsBut [0, 1, 2, 3, 4, 5, 6, 7] p q := by
  intro k hk
  simp only [List.mem_cons, List.not_mem_nil, or_false, not_or] at hk
  have h8 : 8 ≤ k := by omega
  rw [BitVec.getLsbD_of_ge _ _ h8, BitVec.getLsbD_of_ge _ _ h8]

theorem Row.Keeps.refl (w : Row) (s : State) : w.Keeps s s := ⟨rfl, sameBitsBut_refl _ _⟩

theorem Row.Keeps.trans {w : Row} {s t u : State} (h : w.Keeps s t) (k : w.Keeps t u) : w.Keeps s u :=
  ⟨k.parts.trans h.parts, fun n hn => (k.bits n hn).trans (h.bits n hn)⟩

/-- The count of draws is in no row. -/
theorem keeps_of_onlyDraws {s t : State} (h : OnlyDraws s t) (w : Row) : w.Keeps s t := by
  rw [h.1]
  exact ⟨rfl, sameBitsBut_refl _ _⟩

/-- A part on which two states disagree is one the row writes. -/
theorem written_of_ne {α : Type} {written : Bool} {blank u v : α}
    (h : (if written then blank else u) = (if written then blank else v)) (hne : u ≠ v) : written = true := by
  cases written with
  | true => rfl
  | false => exact absurd h hne

/-- A bit of P on which two states disagree is one the row writes. -/
theorem mem_bits_of_ne {w : Row} {s t : State} (h : w.Keeps s t) {k : Nat} (hne : t.p.getLsbD k ≠ s.p.getLsbD k) :
    k ∈ w.bits := Decidable.of_not_not fun hk => hne (h.bits k hk)

/-- A part of an instruction that keeps to a row, whether it goes on or has raised. -/
def Res.KeepsTo {α : Type} (r : Res α) (w : Row) (s : State) : Prop :=
  match r with
  | .ok _ u => w.Keeps s u
  | .raise _ u => w.Keeps s u

theorem Res.KeepsTo.andThen {α β : Type} {r : Res α} {w : Row} {s : State} (h : Res.KeepsTo r w s)
    {k : α → State → Res β} (hk : ∀ v u, Res.KeepsTo (k v u) w u) : Res.KeepsTo (r.andThen k) w s := by
  cases r with
  | raise f u => exact h
  | ok v u =>
    have h' := hk v u
    show Res.KeepsTo (k v u) w s
    revert h'
    cases k v u with
    | ok v' u' => exact Row.Keeps.trans h
    | raise f' u' => exact Row.Keeps.trans h

theorem push_keepsTo {w : Row} (hsp : w.sp = true) (hmem : w.mem = true) (v : Byte) (s : State) :
    Res.KeepsTo (push v s) w s := by
  obtain ⟨-, h⟩ | ⟨-, h⟩ := push_cases v s <;> rw [h]
  · exact .refl w s
  · exact ⟨by simp only [Row.untouched, hsp, hmem, if_true], sameBitsBut_refl _ _⟩

theorem pop_keepsTo {w : Row} (hsp : w.sp = true) (s : State) : Res.KeepsTo (pop s) w s := by
  obtain ⟨-, h⟩ | ⟨-, h⟩ := pop_cases s <;> rw [h]
  · exact .refl w s
  · exact ⟨by simp only [Row.untouched, hsp, if_true], sameBitsBut_refl _ _⟩

theorem pushWord_keepsTo {w : Row} (hsp : w.sp = true) (hmem : w.mem = true) (v : Word) (s : State) :
    Res.KeepsTo (pushWord v s) w s :=
  (push_keepsTo hsp hmem _ s).andThen fun _ u => push_keepsTo hsp hmem _ u

theorem popWord_keepsTo {w : Row} (hsp : w.sp = true) (s : State) : Res.KeepsTo (popWord s) w s :=
  (pop_keepsTo hsp s).andThen fun _ u => (pop_keepsTo hsp u).andThen fun _ v => .refl w v

/-! ## Every instruction keeps to its row -/

/-- The row `w` is the one for `i`, and what the meaning `o` answers keeps to it; a sink call is that of one store. -/
structure InRow (w : Row) (s : State) (i : Instr) (o : Host.Outcome State Fault Refusal) : Prop where
  row : w ∈ rows
  mnemonic : i.mnemonic ∈ w.mnemonics
  mode : ∀ b, w.single = some b → (i.mode = some .single ↔ b = true)
  keeps : ∀ t, o = .next t → w.Keeps s t
  sink : w.sink = true → ∀ t, o = .next t → ∃ addr v, t.sink = sinkAfter addr v s

/-- A meaning that ends in success keeps to its row as the state it has reached does. -/
theorem inRow_complete (w : Row) {s u : State} {i : Instr} (hm : i.mnemonic ∈ w.mnemonics) (h : w.Keeps s u)
    (hmode : ∀ b, w.single = some b → (i.mode = some .single ↔ b = true))
    (hsink : w.sink = true → ∃ addr v, u.sink = sinkAfter addr v s) (hrow : w ∈ rows := by simp [rows]) :
    InRow w s i (complete u) where
  row := hrow
  mnemonic := hm
  mode := hmode
  keeps := fun _ ht => Host.Outcome.next.inj ht ▸ ⟨h.parts, h.bits⟩
  sink := fun hs _ ht => Host.Outcome.next.inj ht ▸ hsink hs

/-- A meaning that may raise keeps to its row as its statements do; none such calls the sink. -/
theorem inRow_finish (w : Row) {s : State} {i : Instr} {r : Res Unit} (hm : i.mnemonic ∈ w.mnemonics)
    (h : Res.KeepsTo r w s) (hmode : ∀ b, w.single ≠ some b) (hsink : w.sink ≠ true)
    (hrow : w ∈ rows := by simp [rows]) : InRow w s i (finish r) where
  row := hrow
  mnemonic := hm
  mode := fun b hb => absurd hb (hmode b)
  keeps := fun _ ht => by
    cases r with
    | ok v u => exact Host.Outcome.next.inj ht ▸ ⟨h.parts, h.bits⟩
    | raise f u => exact Host.Outcome.next.inj ht ▸ ⟨h.parts, h.bits⟩
  sink := fun hs => absurd hs hsink

/-- What is written after the operand has been read. -/
theorem keeps_after_read {w : Row} {src : Source} {s u : State} (h : w.Keeps (readOperand src s).2 u) : w.Keeps s u :=
  (keeps_of_onlyDraws (readOperand_onlyDraws src s) w).trans h

theorem storeAt_keeps {w : Row} (hmem : w.mem = true) (hsink : w.sink = true) (m : Address) (v : Byte) (s : State) :
    w.Keeps s (storeAt m v s) :=
  (keeps_of_onlyDraws (m.resolve_onlyDraws s) w).trans
    ⟨by simp [Row.untouched, storeAt_eq, hmem, hsink], sameBitsBut_refl _ _⟩

theorem modify_keeps {w : Row} (hmem : w.mem = true) (hsink : w.sink = true) (m : Address) (f : Byte → Byte)
    (s : State) : w.Keeps s (Machine.modify m f s).2 :=
  (keeps_of_onlyDraws ((m.resolve_onlyDraws s).trans (memRead_onlyDraws (m.resolve s).1 _)) w).trans
    ⟨by simp [Row.untouched, modify_eq, hmem, hsink], sameBitsBut_refl _ _⟩

theorem sink_of_storeAt (m : Address) (v : Byte) (s : State) :
    ∃ addr v', (storeAt m v s).sink = sinkAfter addr v' s :=
  ⟨_, v, (memWrite_sinkAfter _ v _).trans (by rw [sinkAfter, sinkAfter, resolve_sink])⟩

theorem sink_of_modify (m : Address) (f : Byte → Byte) (s : State) :
    ∃ addr v, (Machine.modify m f s).2.sink = sinkAfter addr v s :=
  ⟨_, _, (memWrite_sinkAfter _ _ _).trans (by rw [sinkAfter, sinkAfter, memRead_sink, resolve_sink])⟩

theorem softwareBreak_keepsTo (s : State) : Res.KeepsTo (softwareBreak s) .brk s :=
  (pushWord_keepsTo rfl rfl _ s).andThen fun _ u => (push_keepsTo rfl rfl _ u).andThen fun _ v =>
    have hI : Row.brk.Keeps v (v.setFlag maskI true) := ⟨rfl, setFlag_sameBitsBut maskI_eq (by decide) true v.p⟩
    (hI.trans (keeps_of_onlyDraws (readWord_onlyDraws _ _) _)).trans ⟨rfl, sameBitsBut_refl _ _⟩

theorem softwareReturn_keepsTo (s : State) : Res.KeepsTo (softwareReturn s) .rti s :=
  (pop_keepsTo rfl s).andThen fun _ u => (popWord_keepsTo rfl u).andThen fun _ _ => ⟨rfl, sameBitsBut_all _ _⟩

/-- Every shared meaning keeps to the row of its mnemonic. -/
theorem inRow_of_runs {s : State} {i : Instr} {o : Host.Outcome State Fault Refusal} (h : Runs s i o) :
    ∃ w, InRow w s i o := by
  cases h with
  | loadA h =>
    exact ⟨_, inRow_complete .accumulator (by simp [h, Row.accumulator])
      (keeps_after_read ⟨rfl, nzBits_sameBitsBut _ _⟩) nofun nofun⟩
  | loadX h =>
    exact ⟨_, inRow_complete .indexX (by simp [h, Row.indexX]) (keeps_after_read ⟨rfl, nzBits_sameBitsBut _ _⟩)
      nofun nofun⟩
  | loadY h =>
    exact ⟨_, inRow_complete .indexY (by simp [h, Row.indexY]) (keeps_after_read ⟨rfl, nzBits_sameBitsBut _ _⟩)
      nofun nofun⟩
  | addOperand h | subtractOperand h =>
    exact ⟨_, inRow_complete .alu (by simp [h, Row.alu]) (keeps_after_read ⟨rfl, aluBits_sameBitsBut _ _⟩) nofun nofun⟩
  | logic h =>
    exact ⟨_, inRow_complete .logic h (keeps_after_read ⟨rfl, nzBits_sameBitsBut _ _⟩) nofun nofun⟩
  | bitOperand h =>
    exact ⟨_, inRow_complete .bit (by simp [h, Row.bit]) (keeps_after_read ⟨rfl, bitBits_sameBitsBut _ _ _⟩)
      nofun nofun⟩
  | compareOperand h =>
    exact ⟨_, inRow_complete .compare h (keeps_after_read ⟨rfl, compareBits_sameBitsBut _ _ _⟩) nofun nofun⟩
  | @store _ m v h =>
    exact ⟨_, inRow_complete .store h (storeAt_keeps rfl rfl m v s) nofun fun _ => sink_of_storeAt m v s⟩
  | @modifyNZ _ m f h =>
    exact ⟨_, inRow_complete .modify h ((modify_keeps rfl rfl m f s).trans ⟨rfl, nzBits_sameBitsBut _ _⟩) nofun
      fun _ => sink_of_modify m f s⟩
  | @shiftMemory _ m f _ h hm =>
    refine ⟨_, inRow_complete .shiftMemory h ((modify_keeps rfl rfl m f s).trans ⟨rfl, shiftBits_sameBitsBut _ _ _⟩)
      (fun b hb => ?_) fun _ => sink_of_modify m f s⟩
    obtain rfl := Option.some.inj hb
    exact iff_of_false hm Bool.false_ne_true
  | shiftAccumulator h hm =>
    refine ⟨_, inRow_complete .shiftAccumulator h ⟨rfl, shiftBits_sameBitsBut _ _ _⟩ (fun b hb => ?_) nofun⟩
    obtain rfl := Option.some.inj hb
    exact iff_of_true hm rfl
  | branch h =>
    refine ⟨_, inRow_complete .branch h ?_ nofun nofun⟩
    split <;> exact ⟨rfl, sameBitsBut_refl _ _⟩
  | txa | tya => exact ⟨_, inRow_complete .accumulator (by decide) ⟨rfl, nzBits_sameBitsBut _ _⟩ nofun nofun⟩
  | tax | tsx | inx | dex => exact ⟨_, inRow_complete .indexX (by decide) ⟨rfl, nzBits_sameBitsBut _ _⟩ nofun nofun⟩
  | tay | iny | dey => exact ⟨_, inRow_complete .indexY (by decide) ⟨rfl, nzBits_sameBitsBut _ _⟩ nofun nofun⟩
  | txs => exact ⟨_, inRow_complete .txs (by decide) ⟨rfl, sameBitsBut_refl _ _⟩ nofun nofun⟩
  | clc | sec =>
    exact ⟨_, inRow_complete .flagC (by decide) ⟨rfl, setFlag_sameBitsBut maskC_eq (by decide) _ _⟩ nofun nofun⟩
  | cld | sed =>
    exact ⟨_, inRow_complete .flagD (by decide) ⟨rfl, setFlag_sameBitsBut maskD_eq (by decide) _ _⟩ nofun nofun⟩
  | cli | sei =>
    exact ⟨_, inRow_complete .flagI (by decide) ⟨rfl, setFlag_sameBitsBut maskI_eq (by decide) _ _⟩ nofun nofun⟩
  | clv =>
    exact ⟨_, inRow_complete .flagV (by decide) ⟨rfl, setFlag_sameBitsBut maskV_eq (by decide) _ _⟩ nofun nofun⟩
  | nop => exact ⟨_, inRow_complete .idle (by decide) (.refl _ s) nofun nofun⟩
  | invalid =>
    exact ⟨_, inRow_finish .idle (List.mem_cons_of_mem "NOP" (List.mem_singleton_self "???")) (Row.Keeps.refl _ s)
      nofun nofun⟩
  | jmpAbsolute =>
    exact ⟨_, inRow_complete .jump (List.mem_singleton_self _) ⟨rfl, sameBitsBut_refl _ _⟩ nofun nofun⟩
  | @jmpIndirect w =>
    exact ⟨_, inRow_complete .jump (List.mem_singleton_self _)
      ((keeps_of_onlyDraws (readWord_onlyDraws w s) _).trans ⟨rfl, sameBitsBut_refl _ _⟩) nofun nofun⟩
  | pha | php => exact ⟨_, inRow_finish .push (by decide) (push_keepsTo rfl rfl _ s) nofun nofun⟩
  | pla =>
    exact ⟨_, inRow_finish .pla (by decide)
      ((pop_keepsTo rfl s).andThen fun _ _ => ⟨rfl, nzBits_sameBitsBut _ _⟩) nofun nofun⟩
  | plp =>
    exact ⟨_, inRow_finish .plp (by decide) ((pop_keepsTo rfl s).andThen fun _ _ => ⟨rfl, sameBitsBut_all _ _⟩)
      nofun nofun⟩
  | jsr =>
    exact ⟨_, inRow_finish .jsr (List.mem_singleton_self _)
      ((pushWord_keepsTo rfl rfl _ s).andThen fun _ _ => ⟨rfl, sameBitsBut_refl _ _⟩) nofun nofun⟩
  | rts =>
    exact ⟨_, inRow_finish .rts (by decide) ((popWord_keepsTo rfl s).andThen fun _ _ => ⟨rfl, sameBitsBut_refl _ _⟩)
      nofun nofun⟩
  | brk => exact ⟨_, inRow_finish .brk (by decide) (softwareBreak_keepsTo s) nofun nofun⟩
  | rti => exact ⟨_, inRow_finish .rti (by decide) (softwareReturn_keepsTo s) nofun nofun⟩

theorem exec_inRow (i : Instr) (s : State) : ∃ w, InRow w s i (exec i s) := inRow_of_runs (exec_runs s i)

/-! ## The obligations, read off the table -/

/-- Settles O24: a register that changed is in the row of the instruction (`exec_inRow`), and the table lists the
mnemonics of each register's rows. -/
theorem registerWriters : Obligations.RegisterWriters := by
  intro i s t h
  obtain ⟨w, hrow, hm, hmode, hkeeps, -⟩ := exec_inRow i s
  have hparts := (hkeeps t h).parts
  refine ⟨fun hne => ?_, fun hne => ?_, fun hne => ?_, fun hne => ?_⟩
  · have table : ∀ w ∈ rows, w.a = true →
        (∀ m ∈ w.mnemonics, m ∈ ["LDA", "ADC", "SBC", "AND", "ORA", "EOR", "PLA", "TXA", "TYA"]) ∨
        (w.single = some true ∧ ∀ m ∈ w.mnemonics, m ∈ ["ASL", "LSR", "ROL", "ROR"]) := by decide
    obtain hall | ⟨hsingle, hall⟩ := table w hrow (written_of_ne (congrArg State.a hparts) hne)
    · exact .inl (hall _ hm)
    · exact .inr ⟨hall _ hm, (hmode true hsingle).mpr rfl⟩
  · have table : ∀ w ∈ rows, w.x = true → ∀ m ∈ w.mnemonics, m ∈ ["LDX", "TAX", "TSX", "INX", "DEX"] := by decide
    exact table w hrow (written_of_ne (congrArg State.x hparts) hne) _ hm
  · have table : ∀ w ∈ rows, w.y = true → ∀ m ∈ w.mnemonics, m ∈ ["LDY", "TAY", "INY", "DEY"] := by decide
    exact table w hrow (written_of_ne (congrArg State.y hparts) hne) _ hm
  · have table : ∀ w ∈ rows, w.sp = true → ∀ m ∈ w.mnemonics,
        m ∈ ["PHA", "PHP", "PLA", "PLP", "JSR", "RTS", "BRK", "RTI", "TXS"] := by decide
    exact table w hrow (written_of_ne (congrArg State.sp hparts) hne) _ hm

/-- A bit of P that an instruction changed is in a row of the table with its mnemonic. -/
theorem mnemonic_of_bit_changed {i : Instr} {s t : State} (h : exec i s = .next t) {k : Nat} {ms : List String}
    (table : ∀ w ∈ rows, k ∈ w.bits → ∀ m ∈ w.mnemonics, m ∈ ms) (hne : t.p.getLsbD k ≠ s.p.getLsbD k) :
    i.mnemonic ∈ ms := by
  obtain ⟨w, hrow, hm, -, hkeeps, -⟩ := exec_inRow i s
  exact table w hrow (mem_bits_of_ne (hkeeps t h) hne) _ hm

/-- Settles O23: `mnemonic_of_bit_changed` for each bit. -/
theorem statusBitWriters : Obligations.StatusBitWriters := by
  intro i s t h
  refine ⟨mnemonic_of_bit_changed h (by decide), fun hne => ?_, mnemonic_of_bit_changed h (by decide),
    mnemonic_of_bit_changed h (by decide), fun hne => ?_, mnemonic_of_bit_changed h (by decide)⟩
  · exact hne.elim (mnemonic_of_bit_changed h (by decide)) (mnemonic_of_bit_changed h (by decide))
  · exact hne.elim (mnemonic_of_bit_changed h (by decide)) (mnemonic_of_bit_changed h (by decide))

/-- Settles O25: memory and sink trace by the table; a row with sink calls is that of one store. -/
theorem memoryWriters : Obligations.MemoryWriters := by
  intro i s t h
  obtain ⟨w, hrow, hm, hmode, hkeeps, hsink⟩ := exec_inRow i s
  have hparts := (hkeeps t h).parts
  have hshift (hw : w.single = some false) : i.mode ≠ some .single := fun e =>
    Bool.false_ne_true ((hmode false hw).mp e)
  constructor
  · intro hne
    have table : ∀ w ∈ rows, w.mem = true →
        (∀ m ∈ w.mnemonics, m ∈ ["STA", "STX", "STY", "INC", "DEC", "PHA", "PHP", "JSR", "BRK"]) ∨
        (w.single = some false ∧ ∀ m ∈ w.mnemonics, m ∈ ["ASL", "LSR", "ROL", "ROR"]) := by decide
    have hmem : t.mem ≠ s.mem := fun e => hne fun a => by rw [e]
    obtain hall | ⟨hsingle, hall⟩ := table w hrow (written_of_ne (congrArg State.mem hparts) hmem)
    · exact .inl (hall _ hm)
    · exact .inr ⟨hall _ hm, hshift hsingle⟩
  · intro hne
    have table : ∀ w ∈ rows, w.sink = true → (∀ m ∈ w.mnemonics, m ∈ ["STA", "STX", "STY", "INC", "DEC"]) ∨
        (w.single = some false ∧ ∀ m ∈ w.mnemonics, m ∈ ["ASL", "LSR", "ROL", "ROR"]) := by decide
    have hwritten := written_of_ne (congrArg State.sink hparts) hne
    constructor
    · obtain hall | ⟨hsingle, hall⟩ := table w hrow hwritten
      · exact .inl (hall _ hm)
      · exact .inr ⟨hall _ hm, hshift hsingle⟩
    · obtain ⟨addr, v, hcall⟩ := hsink hwritten t h
      by_cases hwindow : 0xFC00 ≤ addr.toNat
      · exact ⟨addr, v, hwindow, hcall.trans (if_pos hwindow)⟩
      · exact absurd (hcall.trans (if_neg hwindow)) hne

/-- Settles O12: the fetch by `fetch_onlyDraws`, the instruction by the table's rows that write PC. -/
theorem pcProtocol : Obligations.PcProtocol := by
  intro s
  obtain ⟨hpc, hframe, -⟩ := fetch_onlyDraws s
  have hnext : (fetch s).2.pc.toNat = (s.pc.toNat + (fetch s).1.size) % 65536 := by
    rw [hpc, BitVec.toNat_add, BitVec.toNat_ofNat]
    omega
  refine ⟨hnext, hframe, fun t hs h hm => ?_⟩
  rw [step_of_executing hs] at h
  obtain ⟨w, hrow, hmn, -, hkeeps, -⟩ := exec_inRow (fetch s).1 (fetch s).2
  have table : ∀ w ∈ rows, w.pc = true → ∀ m ∈ w.mnemonics,
      m ∈ ["JMP", "JSR", "RTS", "RTI", "BRK", "BCC", "BCS", "BEQ", "BNE", "BMI", "BPL", "BVC", "BVS"] := by decide
  have hkept : t.pc = (fetch s).2.pc := Decidable.of_not_not fun hne =>
    hm (table w hrow (written_of_ne (congrArg State.pc (hkeeps t h).parts) hne) _ hmn)
  rw [hkept, hnext]

end Sys2Proof.Proofs
end
